-- ==== Sys2Proof/Word.lean ====
section
/-!
DEFINITION. The word types of the block: bytes, 16-bit fields, the 32-bit result, the 18-bit predicted length and the
48-bit command word. Every value is unsigned (00_scope.md R6); arithmetic that the spec makes "without wrap" is done on Nat.
-/

namespace Sys2Proof

/-- An 8-bit value: a buffer byte, a slave address, a function code. -/
abbrev Byte := BitVec 8

/-- A 16-bit value: the CRC register, an address, a quantity, a register value. -/
abbrev Half := BitVec 16

/-- A 32-bit result of a completion record, or a status register (60_exceptions.md R190, 10_state.md R26). -/
abbrev Res := BitVec 32

/-- The 48-bit command word `cmd` (30_encoding.md R70). -/
abbrev CmdWord := BitVec 48

end Sys2Proof
end

