-- ==== Sys2Proof/Config.lean ====
section
/-!
DEFINITION. The parameters of an instance (00_scope.md R4): "A model takes each as an argument (a field of its
configuration) with the default shown". An instance's Config stands in State (DESIGN CHOICE, log 4) and no step writes it (10_state.md R20), so a
statement about every state is a statement about every instance.
-/

namespace Sys2Proof

/-- `CRC_POLY`, fixed (00_scope.md R4). -/
def Config.crcPoly : Half := 0xA001

/-- `CRC_SEED`, fixed (00_scope.md R4). -/
def Config.crcSeed : Half := 0xFFFF

/-- `WMR_QTY_MIN`, fixed (00_scope.md R4). -/
abbrev Config.wmrQtyMin : Nat := 1

/-- `WMR_QTY_MAX`, fixed (00_scope.md R4). -/
abbrev Config.wmrQtyMax : Nat := 123

/-- The parameters of 00_scope.md R4 with their defaults. Seven of the function codes, the write set and the buffer capacity
are supplied by the spec itself and not by its source (UNVERIFIED, log 7). -/
structure Config where
  /-- `ADDR_MIN`: no operation checks it (00_scope.md R4); `RD.SR 8` reads it. -/
  addrMin : Byte := 1
  /-- `ADDR_MAX`: checked by `ENC.WMR` only. -/
  addrMax : Byte := 247
  /-- `BUF_BYTES`: the capacity of each of the four buffers. -/
  bufBytes : Nat := 256
  /-- `FC_RC`, ReadCoils. -/
  fcRc : Byte := 0x01
  /-- `FC_RDI`, ReadDiscreteInputs. -/
  fcRdi : Byte := 0x02
  /-- `FC_RHR`, ReadHoldingRegisters. -/
  fcRhr : Byte := 0x03
  /-- `FC_RIR`, ReadInputRegisters. -/
  fcRir : Byte := 0x04
  /-- `FC_WSC`, WriteSingleCoil. -/
  fcWsc : Byte := 0x05
  /-- `FC_WSR`, WriteSingleRegister. -/
  fcWsr : Byte := 0x06
  /-- `FC_WMC`, WriteMultipleCoils: the predictor alone knows it. -/
  fcWmc : Byte := 0x0F
  /-- `FC_WMR`, WriteMultipleRegisters. -/
  fcWmr : Byte := 0x10
  /-- `WRITE_FC_SET`: the codes the predictor counts as "single/multiple write". -/
  writeFcSet : List Byte := [fcWsc, fcWsr, fcWmc, fcWmr]
  deriving DecidableEq, Repr

/-- The instance with every parameter at its default (00_scope.md R4). -/
def Config.default : Config := { }

/-- The eight function codes `FC_*`, in the order of 00_scope.md R4. -/
def Config.functionCodes (c : Config) : List Byte :=
  [c.fcRc, c.fcRdi, c.fcRhr, c.fcRir, c.fcWsc, c.fcWsr, c.fcWmc, c.fcWmr]

/-- The constraints of 00_scope.md R4: BUF_BYTES at least 255, "all eight FC_* distinct"; and that BUF_BYTES fits the 32 bits
in which `RD.SR 9` returns it (DEDUCED, log 6). The bounds 0..255 hold by the type. -/
abbrev Config.wf (c : Config) : Prop :=
  255 ≤ c.bufBytes ∧ c.bufBytes < 2 ^ 32 ∧ c.functionCodes.Nodup

end Sys2Proof
end

