-- ==== Sys2Proof/Syntax.lean ====
section
/-!
DEFINITION. The 29 commands of spec/opcode_table.json (30_encoding.md R72): one constructor of Instr for each row, with the
fields the command uses and no others (R71), in the operand order `s`, `a`, `b` of R74. The list `Op` names the rows without
operands.
-/

namespace Sys2Proof

/-- The rows of the opcode map (30_encoding.md R72), in the table's order. -/
inductive Op where
  | nop | crcInit | crcUpd | crcRd | crcFrame | crcChk
  | encRaw | encRc | encRdi | encRhr | encRir | encWsc | encWsr | encWmr
  | decBits | decRegs | decWr
  | pred
  | pushPay | pushRx | clrPay | clrRx
  | rdTx | rdRx | rdOut | rdReg
  | rdSr | clrErr | srst
  deriving DecidableEq, Repr

/-- A command with its operands. -/
inductive Instr where
  /-- `NOP` (R160) -/
  | nop
  /-- `CRC.INIT` (R84) -/
  | crcInit
  /-- `CRC.UPD s`: `s` a data byte (R85) -/
  | crcUpd (d : Byte)
  /-- `CRC.RD` (R86) -/
  | crcRd
  /-- `CRC.FRAME` (R87) -/
  | crcFrame
  /-- `CRC.CHK` (R88) -/
  | crcChk
  /-- `ENC.RAW slave, fc`: `fc` in `a[7:0]` (R103) -/
  | encRaw (slave fc : Byte)
  /-- `ENC.RC slave, addr, qty` (R104) -/
  | encRc (slave : Byte) (addr qty : Half)
  /-- `ENC.RDI slave, addr, qty` (R105) -/
  | encRdi (slave : Byte) (addr qty : Half)
  /-- `ENC.RHR slave, addr, qty` (R106) -/
  | encRhr (slave : Byte) (addr qty : Half)
  /-- `ENC.RIR slave, addr, qty` (R107) -/
  | encRir (slave : Byte) (addr qty : Half)
  /-- `ENC.WSC slave, coil, on`: `on` in `b[0]` (R108) -/
  | encWsc (slave : Byte) (coil : Half) (on : Bool)
  /-- `ENC.WSR slave, reg, value` (R109) -/
  | encWsr (slave : Byte) (reg value : Half)
  /-- `ENC.WMR slave, addr, qty` (R110) -/
  | encWmr (slave : Byte) (addr qty : Half)
  /-- `DEC.BITS` (R134) -/
  | decBits
  /-- `DEC.REGS` (R135) -/
  | decRegs
  /-- `DEC.WR` (R136) -/
  | decWr
  /-- `PRED` (R151) -/
  | pred
  /-- `PUSH.PAY s` (R161) -/
  | pushPay (d : Byte)
  /-- `PUSH.RX s` (R162) -/
  | pushRx (d : Byte)
  /-- `CLR.PAY` (R163) -/
  | clrPay
  /-- `CLR.RX` (R164) -/
  | clrRx
  /-- `RD.TX i`: `i` a byte index (R165) -/
  | rdTx (i : Half)
  /-- `RD.RX i` (R166) -/
  | rdRx (i : Half)
  /-- `RD.OUT i` (R167) -/
  | rdOut (i : Half)
  /-- `RD.REG i`: `i` a pair index (R168) -/
  | rdReg (i : Half)
  /-- `RD.SR n`: `n` a status register number, 0 to 9 (R169) -/
  | rdSr (n : Half)
  /-- `CLR.ERR` (R170) -/
  | clrErr
  /-- `SRST` (R171) -/
  | srst
  deriving DecidableEq, Repr

/-- Why a word is illegal: the three cases of 30_encoding.md R73. -/
inductive Illegal where
  /-- (a) "its `op` is not one of the 29 values of R72" -/
  | unassignedOpcode
  /-- (b) "its `op` is one of them and any reserved bit of the word is 1" -/
  | reservedBits
  /-- (c) "it is `RD.SR` with `a > 9`" -/
  | statusNumber
  deriving DecidableEq, Repr

/-- What the total decoder answers: "every one of the 2^48 words is either one of the 29 commands or illegal" (R73). -/
inductive Decoded where
  | command (i : Instr)
  | illegal (why : Illegal)
  deriving DecidableEq, Repr

end Sys2Proof
end

