-- ==== Sys2Proof/WellFormed.lean ====
section
/-!
DEFINITION. Which instructions have a command word. Every operand field has exactly the width of its constructor's
argument, so one check remains: the status register number of `RD.SR` (10_state.md R26, 30_encoding.md R73 (c)).
-/

namespace Sys2Proof

/-- `RD.SR n` needs `n ≤ 9` (30_encoding.md R72: "`RD.SR` has the additional condition `a ≤ 9`"); nothing else is limited. -/
def Instr.WellFormed (i : Instr) : Bool :=
  match i with
  | .rdSr n => decide (n.toNat ≤ 9)
  | .nop | .crcInit | .crcUpd _ | .crcRd | .crcFrame | .crcChk
  | .encRaw _ _ | .encRc _ _ _ | .encRdi _ _ _ | .encRhr _ _ _ | .encRir _ _ _
  | .encWsc _ _ _ | .encWsr _ _ _ | .encWmr _ _ _
  | .decBits | .decRegs | .decWr | .pred
  | .pushPay _ | .pushRx _ | .clrPay | .clrRx
  | .rdTx _ | .rdRx _ | .rdOut _ | .rdReg _ | .clrErr | .srst => true

end Sys2Proof
end

