-- ==== Sys2Proof/Decode.lean ====
section
/-!
DEFINITION. The 48-bit command word (30_encoding.md Part B): its fields (R70), the opcode map with its masks (R72), the total
decoder with the three illegal cases named (R73), and, after it, the encoder.
-/

namespace Sys2Proof

/-- Field `op`, bits [47:40] (R70). -/
def opField (w : CmdWord) : Byte := w.extractLsb' 40 8

/-- Field `s`, bits [39:32] (R70). -/
def sField (w : CmdWord) : Byte := w.extractLsb' 32 8

/-- Field `a`, bits [31:16] (R70). -/
def aField (w : CmdWord) : Half := w.extractLsb' 16 16

/-- Field `b`, bits [15:0] (R70). -/
def bField (w : CmdWord) : Half := w.extractLsb' 0 16

/-- The word with the four given fields (R70). -/
def packWord (op s : Byte) (a b : Half) : CmdWord := op ++ s ++ a ++ b

/-- The opcode of a row (R72, column op). -/
def Op.code : Op → Byte
  | .nop => 0x00
  | .crcInit => 0x01
  | .crcUpd => 0x02
  | .crcRd => 0x03
  | .crcFrame => 0x04
  | .crcChk => 0x05
  | .encRaw => 0x10
  | .encRc => 0x11
  | .encRdi => 0x12
  | .encRhr => 0x13
  | .encRir => 0x14
  | .encWsc => 0x15
  | .encWsr => 0x16
  | .encWmr => 0x17
  | .decBits => 0x20
  | .decRegs => 0x21
  | .decWr => 0x22
  | .pred => 0x30
  | .pushPay => 0x40
  | .pushRx => 0x41
  | .clrPay => 0x42
  | .clrRx => 0x43
  | .rdTx => 0x48
  | .rdRx => 0x49
  | .rdOut => 0x4A
  | .rdReg => 0x4B
  | .rdSr => 0x50
  | .clrErr => 0x51
  | .srst => 0x5F

/-- The mask of a row as R72 prints it. The decoder does not read it: it tests the reserved bits field by field
(`reservedClear`), and a statement says that the two agree. -/
def Op.mask : Op → CmdWord
  | .nop => 0xFFFFFFFFFFFF
  | .crcInit => 0xFFFFFFFFFFFF
  | .crcUpd => 0xFF00FFFFFFFF
  | .crcRd => 0xFFFFFFFFFFFF
  | .crcFrame => 0xFFFFFFFFFFFF
  | .crcChk => 0xFFFFFFFFFFFF
  | .encRaw => 0xFF00FF00FFFF
  | .encRc => 0xFF0000000000
  | .encRdi => 0xFF0000000000
  | .encRhr => 0xFF0000000000
  | .encRir => 0xFF0000000000
  | .encWsc => 0xFF000000FFFE
  | .encWsr => 0xFF0000000000
  | .encWmr => 0xFF0000000000
  | .decBits => 0xFFFFFFFFFFFF
  | .decRegs => 0xFFFFFFFFFFFF
  | .decWr => 0xFFFFFFFFFFFF
  | .pred => 0xFFFFFFFFFFFF
  | .pushPay => 0xFF00FFFFFFFF
  | .pushRx => 0xFF00FFFFFFFF
  | .clrPay => 0xFFFFFFFFFFFF
  | .clrRx => 0xFFFFFFFFFFFF
  | .rdTx => 0xFFFF0000FFFF
  | .rdRx => 0xFFFF0000FFFF
  | .rdOut => 0xFFFF0000FFFF
  | .rdReg => 0xFFFF0000FFFF
  | .rdSr => 0xFFFF0000FFFF
  | .clrErr => 0xFFFFFFFFFFFF
  | .srst => 0xFFFFFFFFFFFF

/-- The match value of a row as R72 prints it. -/
def Op.matchWord : Op → CmdWord
  | .nop => 0x000000000000
  | .crcInit => 0x010000000000
  | .crcUpd => 0x020000000000
  | .crcRd => 0x030000000000
  | .crcFrame => 0x040000000000
  | .crcChk => 0x050000000000
  | .encRaw => 0x100000000000
  | .encRc => 0x110000000000
  | .encRdi => 0x120000000000
  | .encRhr => 0x130000000000
  | .encRir => 0x140000000000
  | .encWsc => 0x150000000000
  | .encWsr => 0x160000000000
  | .encWmr => 0x170000000000
  | .decBits => 0x200000000000
  | .decRegs => 0x210000000000
  | .decWr => 0x220000000000
  | .pred => 0x300000000000
  | .pushPay => 0x400000000000
  | .pushRx => 0x410000000000
  | .clrPay => 0x420000000000
  | .clrRx => 0x430000000000
  | .rdTx => 0x480000000000
  | .rdRx => 0x490000000000
  | .rdOut => 0x4A0000000000
  | .rdReg => 0x4B0000000000
  | .rdSr => 0x500000000000
  | .clrErr => 0x510000000000
  | .srst => 0x5F0000000000

/-- Every row of the opcode map, in its order. -/
def Op.all : List Op :=
  [.nop, .crcInit, .crcUpd, .crcRd, .crcFrame, .crcChk,
   .encRaw, .encRc, .encRdi, .encRhr, .encRir, .encWsc, .encWsr, .encWmr,
   .decBits, .decRegs, .decWr, .pred,
   .pushPay, .pushRx, .clrPay, .clrRx, .rdTx, .rdRx, .rdOut, .rdReg,
   .rdSr, .clrErr, .srst]

/-- The row with the given opcode, if the opcode is assigned (R72, R73 (a)). -/
def opOfByte (b : Byte) : Option Op := Op.all.find? (fun o => o.code == b)

/-- The reserved bits of a word are 0: a field the command does not use, `a[15:8]` of `ENC.RAW`, `b[15:1]` of `ENC.WSC`
(R71, and column "used" of R72). -/
def reservedClear (op : Op) (s : Byte) (a b : Half) : Bool :=
  match op with
  | .crcUpd | .pushPay | .pushRx => a == 0 && b == 0
  | .encRaw => a.extractLsb' 8 8 == 0 && b == 0
  | .encRc | .encRdi | .encRhr | .encRir | .encWsr | .encWmr => true
  | .encWsc => b.extractLsb' 1 15 == 0
  | .rdTx | .rdRx | .rdOut | .rdReg | .rdSr => s == 0 && b == 0
  | .nop | .crcInit | .crcRd | .crcFrame | .crcChk | .decBits | .decRegs | .decWr | .pred
  | .clrPay | .clrRx | .clrErr | .srst => s == 0 && a == 0 && b == 0

/-- Operand assembly (R71): every field "used as it stands". -/
def assemble (op : Op) (s : Byte) (a b : Half) : Instr :=
  match op with
  | .nop => .nop
  | .crcInit => .crcInit
  | .crcUpd => .crcUpd s
  | .crcRd => .crcRd
  | .crcFrame => .crcFrame
  | .crcChk => .crcChk
  | .encRaw => .encRaw s (a.extractLsb' 0 8)
  | .encRc => .encRc s a b
  | .encRdi => .encRdi s a b
  | .encRhr => .encRhr s a b
  | .encRir => .encRir s a b
  | .encWsc => .encWsc s a (b.getLsbD 0)
  | .encWsr => .encWsr s a b
  | .encWmr => .encWmr s a b
  | .decBits => .decBits
  | .decRegs => .decRegs
  | .decWr => .decWr
  | .pred => .pred
  | .pushPay => .pushPay s
  | .pushRx => .pushRx s
  | .clrPay => .clrPay
  | .clrRx => .clrRx
  | .rdTx => .rdTx a
  | .rdRx => .rdRx a
  | .rdOut => .rdOut a
  | .rdReg => .rdReg a
  | .rdSr => .rdSr a
  | .clrErr => .clrErr
  | .srst => .srst

/-- The total decoder (R72, R73): a command, or the first of R73's three reasons why the word is illegal. -/
def decode (w : CmdWord) : Decoded :=
  match opOfByte (opField w) with
  | none => .illegal .unassignedOpcode
  | some op =>
    if reservedClear op (sField w) (aField w) (bField w) then
      if op = .rdSr ∧ 9 < (aField w).toNat then .illegal .statusNumber
      else .command (assemble op (sField w) (aField w) (bField w))
    else .illegal .reservedBits

/-- The row an instruction belongs to. -/
def Instr.op : Instr → Op
  | .nop => .nop
  | .crcInit => .crcInit
  | .crcUpd _ => .crcUpd
  | .crcRd => .crcRd
  | .crcFrame => .crcFrame
  | .crcChk => .crcChk
  | .encRaw _ _ => .encRaw
  | .encRc _ _ _ => .encRc
  | .encRdi _ _ _ => .encRdi
  | .encRhr _ _ _ => .encRhr
  | .encRir _ _ _ => .encRir
  | .encWsc _ _ _ => .encWsc
  | .encWsr _ _ _ => .encWsr
  | .encWmr _ _ _ => .encWmr
  | .decBits => .decBits
  | .decRegs => .decRegs
  | .decWr => .decWr
  | .pred => .pred
  | .pushPay _ => .pushPay
  | .pushRx _ => .pushRx
  | .clrPay => .clrPay
  | .clrRx => .clrRx
  | .rdTx _ => .rdTx
  | .rdRx _ => .rdRx
  | .rdOut _ => .rdOut
  | .rdReg _ => .rdReg
  | .rdSr _ => .rdSr
  | .clrErr => .clrErr
  | .srst => .srst

/-- The encoder: the command word of an instruction, from the fields of R70 and the opcodes of R72, reserved bits 0. -/
def encode (i : Instr) : CmdWord :=
  match i with
  | .nop => packWord Op.nop.code 0 0 0
  | .crcInit => packWord Op.crcInit.code 0 0 0
  | .crcUpd d => packWord Op.crcUpd.code d 0 0
  | .crcRd => packWord Op.crcRd.code 0 0 0
  | .crcFrame => packWord Op.crcFrame.code 0 0 0
  | .crcChk => packWord Op.crcChk.code 0 0 0
  | .encRaw slave fc => packWord Op.encRaw.code slave ((0 : Byte) ++ fc) 0
  | .encRc slave addr qty => packWord Op.encRc.code slave addr qty
  | .encRdi slave addr qty => packWord Op.encRdi.code slave addr qty
  | .encRhr slave addr qty => packWord Op.encRhr.code slave addr qty
  | .encRir slave addr qty => packWord Op.encRir.code slave addr qty
  | .encWsc slave coil on => packWord Op.encWsc.code slave coil ((0 : BitVec 15) ++ BitVec.ofBool on)
  | .encWsr slave reg value => packWord Op.encWsr.code slave reg value
  | .encWmr slave addr qty => packWord Op.encWmr.code slave addr qty
  | .decBits => packWord Op.decBits.code 0 0 0
  | .decRegs => packWord Op.decRegs.code 0 0 0
  | .decWr => packWord Op.decWr.code 0 0 0
  | .pred => packWord Op.pred.code 0 0 0
  | .pushPay d => packWord Op.pushPay.code d 0 0
  | .pushRx d => packWord Op.pushRx.code d 0 0
  | .clrPay => packWord Op.clrPay.code 0 0 0
  | .clrRx => packWord Op.clrRx.code 0 0 0
  | .rdTx i => packWord Op.rdTx.code 0 i 0
  | .rdRx i => packWord Op.rdRx.code 0 i 0
  | .rdOut i => packWord Op.rdOut.code 0 i 0
  | .rdReg i => packWord Op.rdReg.code 0 i 0
  | .rdSr n => packWord Op.rdSr.code 0 n 0
  | .clrErr => packWord Op.clrErr.code 0 0 0
  | .srst => packWord Op.srst.code 0 0 0

/-- The command word whose low `nbits` bits are those of `w`, every bit above them 0. -/
def tableWord (nbits w : Nat) : CmdWord := BitVec.ofNat 48 (w % 2 ^ nbits)

/-- The instruction the decoder reads from a word numbered as spec/opcode_table.json numbers it: there is one 48-bit word, bit
0 its least significant bit, and no byte order (R70; DESIGN CHOICE, log 9). -/
def decodeTableWord (nbits w : Nat) : Option Instr :=
  match decode (tableWord nbits w) with
  | .command i => some i
  | .illegal _ => none

end Sys2Proof
end

