-- ==== Sys2Proof/Machine/State.lean ====
section
/-!
DEFINITION. The block's state (10_state.md), the completion record (60_exceptions.md R190, R191), what the host may present
(00_scope.md R9), the state after reset (10_state.md R28), and the reasons a step could stop.
-/

namespace Sys2Proof.Machine

/-- The completion codes of 60_exceptions.md R191, in its order; 14 and 15 "are never produced" and have no constructor. -/
inductive Code where
  /-- 0 `OK` -/
  | ok
  /-- 1 `E_ILLCMD`: illegal command word (30_encoding.md R73) -/
  | illCmd
  /-- 2 `E_VAL_SLAVE`: slave address > ADDR_MAX -/
  | valSlave
  /-- 3 `E_VAL_QTY`: quantity outside [1,123] -/
  | valQty
  /-- 4 `E_VAL_LEN`: value-buffer length ≠ 2×quantity -/
  | valLen
  /-- 5 `E_FRM_SHORT`: response length < 4 -/
  | frmShort
  /-- 6 `E_FRM_ADDR`: response[0] ≠ request slave address -/
  | frmAddr
  /-- 7 `E_FRM_FC`: response[1] ≠ request function code -/
  | frmFc
  /-- 8 `E_FRM_STRIP`: read-family response of exactly 4 bytes -/
  | frmStrip
  /-- 9 `E_FRM_ODD`: register response with an odd number of data bytes -/
  | frmOdd
  /-- 10 `E_OVF`: a buffer would exceed BUF_BYTES -/
  | ovf
  /-- 11 `E_IDX`: read index outside the buffer content -/
  | idx
  /-- 12 `E_NOREQ`: decode with no request latched -/
  | noReq
  /-- 13 `E_REQSHORT`: TX too short to be predicted from -/
  | reqShort
  deriving DecidableEq, Repr

/-- The source's error classes that a completion code can belong to (60_exceptions.md R191, R193). -/
inductive SourceClass where
  | validationError
  | frameError
  deriving DecidableEq, Repr

/-- The completion record `(cc, res)` every command returns (60_exceptions.md R190). -/
structure Completion where
  cc : Code
  res : Res
  deriving DecidableEq, Repr

/-- What the host does to the block (00_scope.md R9): it presents a command word, any of the 2^48, or asserts reset between
commands. `presented` holds the words presented while reset is asserted, which are not executed (70_reset_and_hazards.md
R221). -/
inductive HostInput where
  | command (w : CmdWord)
  | reset (presented : List CmdWord)
  deriving DecidableEq, Repr

/-- A byte buffer's content: its bytes at indices 0 .. LEN-1, LEN being the list's length (10_state.md R18: "a byte sequence
of length ≤ BUF_BYTES and nothing more"; DEDUCED, log 5). -/
abbrev Buffer := List Byte

/-- The whole state. The first thirteen fields are the block's (10_state.md R13 to R20); `port` and `trace` are the model's
own: what the host has presented and not yet had executed, and what the block has answered (DESIGN CHOICE, log 1 and log 2). -/
structure State where
  /-- `CRC` (R13) -/
  crc : Half
  /-- `REQ_SLAVE` (R14) -/
  reqSlave : Byte
  /-- `REQ_FC` (R14) -/
  reqFc : Byte
  /-- `REQ_VALID` (R14) -/
  reqValid : Bool
  /-- `CRC_OK` (R15) -/
  crcOk : Bool
  /-- `EXPLEN` (R16) -/
  expLen : BitVec 18
  /-- `ECAUSE` (R17) -/
  ecause : BitVec 4
  /-- `ECMD` (R17) -/
  ecmd : Byte
  /-- `PAY`, and `PAYLEN` as its length (R18) -/
  pay : Buffer
  /-- `TX`, and `TXLEN` as its length (R18) -/
  tx : Buffer
  /-- `RX`, and `RXLEN` as its length (R18) -/
  rx : Buffer
  /-- `OUT`, and `OUTLEN` as its length (R18) -/
  out : Buffer
  /-- the constants of the instance (R20, 00_scope.md R4) -/
  cfg : Config
  /-- presented and not yet taken, oldest first -/
  port : List HostInput
  /-- completion records delivered, oldest first (00_scope.md R9) -/
  trace : List Completion
  deriving DecidableEq, Repr

/-- The state right after reset (10_state.md R28) of the instance with the default parameters, nothing presented and nothing
answered yet. -/
def State.reset : State where
  crc := 0xFFFF
  reqSlave := 0
  reqFc := 0
  reqValid := false
  crcOk := false
  expLen := 0
  ecause := 0
  ecmd := 0
  pay := []
  tx := []
  rx := []
  out := []
  cfg := Config.default
  port := []
  trace := []

/-- The form a buffer keeps: its length is at most BUF_BYTES (10_state.md R18, R27 I-a). -/
abbrev Buffer.wf (capacity : Nat) (b : Buffer) : Prop := b.length ≤ capacity

/-- The form of the four memories of the block (10_state.md R27 I-a). There is no other memory (20_memory.md R40). -/
abbrev Memory.wf (s : State) : Prop :=
  Buffer.wf s.cfg.bufBytes s.pay ∧ Buffer.wf s.cfg.bufBytes s.tx ∧
  Buffer.wf s.cfg.bufBytes s.rx ∧ Buffer.wf s.cfg.bufBytes s.out

/-- The faults that stop the machine: there is none. "Every command terminates"; "the block has no stuck state and no hang"
(00_scope.md R9), and every command, legal or illegal, returns a completion record (60_exceptions.md R190). No definition
raises a fault; that the type is empty is safe to read as "no step faults" only as far as log 3 says. -/
inductive Fault where
  deriving DecidableEq, Repr

/-- The refusals of the model. -/
inductive Refusal where
  /-- Answered by the arm of `exec` for an instruction without a meaning, by its mnemonic; safe. No arm answers it: every
  command has its meaning. -/
  | notModelled (mnemonic : String)
  deriving DecidableEq, Repr

/-- The outcome of one command or one step. -/
abbrev Result := Host.Outcome State Fault Refusal

end Sys2Proof.Machine
end

