-- ==== Sys2Proof/Machine/Operands.lean ====
section
/-!
DEFINITION. Byte order and operand forms: the halves of a 16-bit value, big-endian fields (20_memory.md R42, R44), the CRC
trailer (R43), zero extension into `res` (00_scope.md R7), and the fields the request encoders build from their operands
(30_encoding.md R63, R65).
-/

namespace Sys2Proof.Machine

/-- The "low byte" `v[7:0]` (00_scope.md R6). -/
def loByte (v : Half) : Byte := v.extractLsb' 0 8

/-- The "high byte" `v[15:8]` (00_scope.md R6). -/
def hiByte (v : Half) : Byte := v.extractLsb' 8 8

/-- `be16(v)`: high byte first (20_memory.md R42). -/
def be16 (v : Half) : List Byte := [hiByte v, loByte v]

/-- The 16-bit value of two bytes in big-endian order, `(h << 8) | l` (20_memory.md R44). -/
def ofBe16 (h l : Byte) : Half := (h.setWidth 16 <<< 8) ||| l.setWidth 16

/-- The CRC trailer of a register value: "low byte first, then high byte" (20_memory.md R43). -/
def crcTrailer (c : Half) : List Byte := [loByte c, hiByte c]

/-- `zext_32` (00_scope.md R7). -/
def zext32 {n : Nat} (v : BitVec n) : Res := v.setWidth 32

/-- `zext_32` of a length or a count held as a natural number (00_scope.md R7). -/
def natRes (n : Nat) : Res := BitVec.ofNat 32 n

/-- The value field of a WriteSingleCoil request: `0xFF00` for on, `0x0000` for off (30_encoding.md R63). -/
def coilValue (on : Bool) : Half := if on then 0xFF00 else 0x0000

/-- The byte-count byte `(2*b)[7:0]` of a WriteMultipleRegisters request (30_encoding.md R65, 41_frame_encode.md R110). -/
def byteCount (qty : Half) : Byte := BitVec.ofNat 8 (2 * qty.toNat)

end Sys2Proof.Machine
end

