-- ==== Sys2Proof/Machine/Functions.lean ====
section
/-!
DEFINITION. The functional layer (00_scope.md section 1): the pure functions over byte sequences that the spec takes from its
source. crc_step, crc16, crc_append (40_crc_engine.md), adu (41_frame_encode.md), hdr_check, strip, regs
(42_frame_decode.md), predict (43_length_predictor.md).
-/

namespace Sys2Proof.Machine

/-- One bit iteration of `crc_step` (R80): "if the register's low bit is 1, shift right one and XOR with 0xA001, otherwise
just shift right"; the test is made on the value before the shift. -/
def crcShift (r : Half) : Half :=
  if r.getLsbD 0 then (r >>> 1) ^^^ Config.crcPoly else r >>> 1

/-- `n` bit iterations. -/
def crcShifts : Nat → Half → Half
  | 0, r => r
  | n + 1, r => crcShifts n (crcShift r)

/-- `crc_step(r, d)` (R80): the byte is XORed into the low byte, then 8 bit iterations. -/
def crcStep (r : Half) (d : Byte) : Half := crcShifts 8 (r ^^^ d.setWidth 16)

/-- `crc16(data)` (R81): from the seed, every byte in order; no final XOR. -/
def crc16 (data : List Byte) : Half := data.foldl crcStep Config.crcSeed

/-- `crc_append(data)` (R82): the data, then the low byte, then the high byte of its CRC. -/
def crcAppend (data : List Byte) : List Byte := data ++ crcTrailer (crc16 data)

/-- `adu(slave, fc, payload)` (R100). -/
def adu (slave fc : Byte) (payload : List Byte) : List Byte := crcAppend ([slave, fc] ++ payload)

/-- `hdr_check(resp, slave, fc)` (R130): length below 4 first, then address, then function code. -/
def hdrCheck (resp : List Byte) (slave fc : Byte) : Code :=
  match resp with
  | r0 :: r1 :: _ :: _ :: _ =>
    if r0 ≠ slave then .frmAddr
    else if r1 ≠ fc then .frmFc
    else .ok
  | _ => .frmShort

/-- `strip(resp)` (R131): `resp[3 .. len(resp)-2)`. The rule defines it for 5 bytes and more; no command calls it on fewer
(DESIGN CHOICE, log 8). -/
def strip (resp : List Byte) : List Byte := (resp.drop 3).take (resp.length - 5)

/-- `regs(data)` (R132): the big-endian pairs in order. The rule defines it for even lengths; of an odd length it takes the
whole pairs, as `RD.REG` does (44_buffer_and_system.md R168; DESIGN CHOICE, log 8). -/
def regs : List Byte → List Half
  | h :: l :: rest => ofBe16 h l :: regs rest
  | [_] => []
  | [] => []

/-- The quantity field of a read request, the `be16` at bytes 4 and 5 (R150, 30_encoding.md R62), where those bytes exist. -/
def requestQty (request : List Byte) : Option Nat :=
  match request with
  | _ :: _ :: _ :: _ :: h :: l :: _ => some (ofBe16 h l).toNat
  | _ => none

/-- `predict(adu)` (R150), a natural number: "nothing wraps" (R152). It has no value on an input shorter than an ADU, nor, for
the four read codes, where the quantity bytes do not exist: exactly the inputs `PRED` fails on (R151). -/
def predict (cfg : Config) (request : List Byte) : Option Nat :=
  match request with
  | _ :: fc :: _ :: _ :: _ =>
    if fc = cfg.fcRc ∨ fc = cfg.fcRdi then
      (requestQty request).map (fun q => 4 + 1 + (q + 7) / 8)
    else if fc = cfg.fcRhr ∨ fc = cfg.fcRir then
      (requestQty request).map (fun q => 4 + 1 + 2 * q)
    else if fc ∈ cfg.writeFcSet then some (4 + 4)
    else some 4
  | _ => none

end Sys2Proof.Machine
end

