-- ==== Sys2Proof/Machine/Flags.lean ====
section
/-!
DEFINITION. Codes, flags and status: the numbers and source classes of the completion codes (60_exceptions.md R191), the flag
CRC_OK (40_crc_engine.md R88), and the status registers SR[0] to SR[9] that `RD.SR` reads (10_state.md R26).
-/

namespace Sys2Proof.Machine

/-- The 4-bit number of a completion code (R191). -/
def Code.bits : Code → BitVec 4
  | .ok => 0
  | .illCmd => 1
  | .valSlave => 2
  | .valQty => 3
  | .valLen => 4
  | .frmShort => 5
  | .frmAddr => 6
  | .frmFc => 7
  | .frmStrip => 8
  | .frmOdd => 9
  | .ovf => 10
  | .idx => 11
  | .noReq => 12
  | .reqShort => 13

/-- The source's error class of a code, where it has one (R191, column "source class"). -/
def Code.sourceClass : Code → Option SourceClass
  | .valSlave | .valQty | .valLen => some .validationError
  | .frmShort | .frmAddr | .frmFc | .frmStrip | .frmOdd => some .frameError
  | .ok | .illCmd | .ovf | .idx | .noReq | .reqShort => none

/-- The CRC that `CRC.CHK` recomputes: over all but the last two bytes (R88). -/
def checkedCrc (frame : List Byte) : Half := crc16 (frame.take (frame.length - 2))

/-- The flag `CRC_OK` (R88): the last two bytes are the trailer of the recomputed CRC; 0 for a frame shorter than 2 bytes. -/
def crcOkFlag (frame : List Byte) : Bool :=
  decide (2 ≤ frame.length) && (frame.drop (frame.length - 2) == crcTrailer (checkedCrc frame))

/-- `SR[0]` STATUS (10_state.md R26): [3:0] ECAUSE, [11:4] ECMD, [12] REQ_VALID, [13] CRC_OK, [31:14] zero. -/
def State.statusWord (s : State) : Res :=
  (0 : BitVec 18) ++ BitVec.ofBool s.crcOk ++ BitVec.ofBool s.reqValid ++ s.ecmd ++ s.ecause

/-- `SR[n]` (10_state.md R26); "Numbers 10 and above are not assigned". -/
def State.statusReg (s : State) (n : Nat) : Option Res :=
  match n with
  | 0 => some s.statusWord
  | 1 => some (zext32 s.crc)
  | 2 => some ((0 : Half) ++ s.reqFc ++ s.reqSlave)
  | 3 => some (natRes s.pay.length)
  | 4 => some (natRes s.tx.length)
  | 5 => some (natRes s.rx.length)
  | 6 => some (natRes s.out.length)
  | 7 => some (zext32 s.expLen)
  | 8 => some ((0 : Half) ++ s.cfg.addrMax ++ s.cfg.addrMin)
  | 9 => some (natRes s.cfg.bufBytes)
  | _ => none

end Sys2Proof.Machine
end

