-- ==== Sys2Proof/Machine/Ops.lean ====
section
/-!
DEFINITION. The named operations the commands share: completing (60_exceptions.md R190), error entry `fail`, the block's whole
exception mechanism (R192), the success and failure paths of the encoders (41_frame_encode.md R101, R102), the checks and the
failure path of the decoders (42_frame_decode.md R133), reading one byte of a buffer (20_memory.md R46), illegal words
(30_encoding.md R73), and reset (70_reset_and_hazards.md R220, R221). There is no return from an exception: a failing command
"has already returned when its completion record is delivered" (60_exceptions.md R195).
-/

namespace Sys2Proof.Machine

/-- The state once a completion record has been delivered to the host. -/
def State.deliver (s : State) (cc : Code) (res : Res) : State :=
  { s with trace := s.trace ++ [{ cc := cc, res := res }] }

/-- `complete(cc, res)` (00_scope.md R7): "every path of every command ends in exactly one `complete`". -/
def complete (cc : Code) (res : Res) (s : State) : Result := .next (s.deliver cc res)

/-- The first-error record on a failure (R192): written "only while `ECAUSE = 0`" (10_state.md R17). `opcode` is
`cmd[47:40]`; a command's own definition passes the opcode of its row, which its word carries there (DEDUCED, log 12). -/
def State.recordError (s : State) (code : Code) (opcode : Byte) : State :=
  if s.ecause = 0 then { s with ecause := code.bits, ecmd := opcode } else s

/-- Error entry `fail(code)` (R192), for the command word whose top byte is `opcode`. -/
def fail (code : Code) (opcode : Byte) (s : State) : Result :=
  complete code 0 (s.recordError code opcode)

/-- `REQ_VALID <- 0 ; REQ_SLAVE <- 0 ; REQ_FC <- 0` (10_state.md R14). -/
def State.clearRequest (s : State) : State :=
  { s with reqValid := false, reqSlave := 0, reqFc := 0 }

/-- `REQ_SLAVE <- slave ; REQ_FC <- fc ; REQ_VALID <- 1` (10_state.md R14). -/
def State.latchRequest (s : State) (slave fc : Byte) : State :=
  { s with reqValid := true, reqSlave := slave, reqFc := fc }

/-- `emit(slave, fc, payload)` (41_frame_encode.md R101). Its rule requires `len(payload) + 4 <= BUF_BYTES`, which every
caller has on an instance that keeps 00_scope.md R4 (DEDUCED, log 6). -/
def emit (slave fc : Byte) (payload : List Byte) (s : State) : Result :=
  complete .ok (natRes (adu slave fc payload).length)
    ({ s with crc := crc16 ([slave, fc] ++ payload), tx := adu slave fc payload }.latchRequest slave fc)

/-- `reject(code)` (41_frame_encode.md R102): no frame is left in TX and no request is latched. -/
def reject (code : Code) (opcode : Byte) (s : State) : Result :=
  fail code opcode { s with tx := [] }.clearRequest

/-- The checks every `DEC.*` makes first (42_frame_decode.md R133, R130): `E_NOREQ`, then `hdr_check` of RX against the
request latch. -/
def State.responseCheck (s : State) : Code :=
  if s.reqValid then hdrCheck s.rx s.reqSlave s.reqFc else .noReq

/-- The failure path of every `DEC.*`: `OUTLEN <- 0 ; fail(code)` (42_frame_decode.md R133). -/
def rejectResponse (code : Code) (opcode : Byte) (s : State) : Result :=
  fail code opcode { s with out := [] }

/-- Reading byte `i` of a buffer: the byte, or `E_IDX` when `i ≥ LEN` (20_memory.md R41, R46). -/
def readByte (buf : Buffer) (i : Half) (opcode : Byte) (s : State) : Result :=
  match buf[i.toNat]? with
  | some d => complete .ok (zext32 d) s
  | none => fail .idx opcode s

/-- An illegal word (30_encoding.md R73): `fail(E_ILLCMD)`, no other state changes. -/
def execIllegal (w : CmdWord) (s : State) : Result := fail .illCmd (opField w) s

/-- Every register at its reset value, every buffer empty, the instance's constants unchanged (10_state.md R28, the
assignments of 44_buffer_and_system.md R171). What the host has presented and what the block has answered are no block state
and stay (DESIGN CHOICE, log 1, log 2). -/
def State.toReset (s : State) : State :=
  { s with
    crc := 0xFFFF
    reqSlave := 0, reqFc := 0, reqValid := false
    crcOk := false, expLen := 0
    ecause := 0, ecmd := 0
    pay := [], tx := [], rx := [], out := [] }

/-- The reset transition (70_reset_and_hazards.md R220): no command is executed and no completion record is returned
(R221). -/
def execReset (s : State) : Result := .next s.toReset

/-- The block takes the oldest thing the host has presented (00_scope.md R5: commands execute "in which the host presents
them"), if there is one. -/
def State.takeInput (s : State) : Option (HostInput × State) :=
  match s.port with
  | [] => none
  | x :: rest => some (x, { s with port := rest })

/-- The host presents a word to be taken before anything it has presented already. -/
def State.present (s : State) (w : CmdWord) : State := { s with port := .command w :: s.port }

/-- With nothing presented the block is idle and unchanged (00_scope.md R9; DEDUCED, log 3). -/
def execIdle (s : State) : Result := .next s

end Sys2Proof.Machine
end

