-- ==== Sys2Proof/Machine/BufferSystem.lean ====
section
/-!
DEFINITION. Buffer access and system commands (44_buffer_and_system.md R160 to R171). All may be issued at the one privilege
level there is (60_exceptions.md R198).
-/

namespace Sys2Proof.Machine

/-- `NOP` (R160). -/
def execNop (s : State) : Result := complete .ok 0 s

/-- `PUSH.PAY s` (R161). -/
def execPushPay (d : Byte) (s : State) : Result :=
  if s.pay.length = s.cfg.bufBytes then fail .ovf Op.pushPay.code s
  else complete .ok (natRes (s.pay.length + 1)) { s with pay := s.pay ++ [d] }

/-- `PUSH.RX s` (R162): withdraws CRC_OK, but not when it fails. -/
def execPushRx (d : Byte) (s : State) : Result :=
  if s.rx.length = s.cfg.bufBytes then fail .ovf Op.pushRx.code s
  else complete .ok (natRes (s.rx.length + 1)) { s with rx := s.rx ++ [d], crcOk := false }

/-- `CLR.PAY` (R163). -/
def execClrPay (s : State) : Result := complete .ok 0 { s with pay := [] }

/-- `CLR.RX` (R164). -/
def execClrRx (s : State) : Result := complete .ok 0 { s with rx := [], crcOk := false }

/-- `RD.TX i` (R165). -/
def execRdTx (i : Half) (s : State) : Result := readByte s.tx i Op.rdTx.code s

/-- `RD.RX i` (R166). -/
def execRdRx (i : Half) (s : State) : Result := readByte s.rx i Op.rdRx.code s

/-- `RD.OUT i` (R167). -/
def execRdOut (i : Half) (s : State) : Result := readByte s.out i Op.rdOut.code s

/-- `RD.REG i` (R168): the pair OUT[2i], OUT[2i+1], the index computed without wrap. -/
def execRdReg (i : Half) (s : State) : Result :=
  match s.out[2 * i.toNat]?, s.out[2 * i.toNat + 1]? with
  | some h, some l => complete .ok (zext32 (ofBe16 h l)) s
  | _, _ => fail .idx Op.rdReg.code s

/-- `RD.SR n` (R169): "Errors: `E_ILLCMD` for `a > 9`", which the decoder already makes of such a word; a
number above 9 that reaches this definition fails the same way (DEDUCED, log 12). -/
def execRdSr (n : Half) (s : State) : Result :=
  match s.statusReg n.toNat with
  | some v => complete .ok v s
  | none => fail .illCmd Op.rdSr.code s

/-- `CLR.ERR` (R170). -/
def execClrErr (s : State) : Result := complete .ok 0 { s with ecause := 0, ecmd := 0 }

/-- `SRST` (R171). -/
def execSrst (s : State) : Result := complete .ok 0 s.toReset

end Sys2Proof.Machine
end

