-- ==== Sys2Proof/Machine/CrcEngine.lean ====
section
/-!
DEFINITION. The commands of the CRC engine (40_crc_engine.md R84 to R88).
-/

namespace Sys2Proof.Machine

/-- `CRC.INIT` (R84). -/
def execCrcInit (s : State) : Result := complete .ok 0 { s with crc := Config.crcSeed }

/-- `CRC.UPD s` (R85): the result is the new register. -/
def execCrcUpd (d : Byte) (s : State) : Result :=
  complete .ok (zext32 (crcStep s.crc d)) { s with crc := crcStep s.crc d }

/-- `CRC.RD` (R86). -/
def execCrcRd (s : State) : Result := complete .ok (zext32 s.crc) s

/-- `CRC.FRAME` (R87): the request latch is cleared on both paths; the length test is made on natural numbers (R89). -/
def execCrcFrame (s : State) : Result :=
  if s.cfg.bufBytes < s.pay.length + 2 then
    fail .ovf Op.crcFrame.code { s.clearRequest with tx := [] }
  else
    complete .ok (natRes (crcAppend s.pay).length)
      { s.clearRequest with crc := crc16 s.pay, tx := crcAppend s.pay }

/-- `CRC.CHK` (R88): never fails; below two bytes CRC stays. -/
def execCrcChk (s : State) : Result :=
  if s.rx.length < 2 then
    complete .ok 0 { s with crcOk := false }
  else
    complete .ok (zext32 (BitVec.ofBool (crcOkFlag s.rx)))
      { s with crc := checkedCrc s.rx, crcOk := crcOkFlag s.rx }

end Sys2Proof.Machine
end

