-- ==== Sys2Proof/Machine/FrameDecode.lean ====
section
/-!
DEFINITION. The response decoders (42_frame_decode.md R134 to R136). None verifies the CRC trailer, the byte-count field or
the echoed fields (R138); an exception response is a function-code mismatch (R137).
-/

namespace Sys2Proof.Machine

/-- `DEC.BITS` (R134). -/
def execDecBits (s : State) : Result :=
  if s.responseCheck ≠ .ok then rejectResponse s.responseCheck Op.decBits.code s
  else if s.rx.length < 5 then rejectResponse .frmStrip Op.decBits.code s
  else complete .ok (natRes (strip s.rx).length) { s with out := strip s.rx }

/-- `DEC.REGS` (R135): the result is the number of registers. -/
def execDecRegs (s : State) : Result :=
  if s.responseCheck ≠ .ok then rejectResponse s.responseCheck Op.decRegs.code s
  else if s.rx.length < 5 then rejectResponse .frmStrip Op.decRegs.code s
  else if (s.rx.length - 5) % 2 = 1 then rejectResponse .frmOdd Op.decRegs.code s
  else complete .ok (natRes ((strip s.rx).length / 2)) { s with out := strip s.rx }

/-- `DEC.WR` (R136): OUT is emptied on every path; the length test applies (90_conflicts.md C4). -/
def execDecWr (s : State) : Result :=
  if s.responseCheck ≠ .ok then rejectResponse s.responseCheck Op.decWr.code s
  else complete .ok 0 { s with out := [] }

end Sys2Proof.Machine
end

