-- ==== Sys2Proof/Machine/FrameEncode.lean ====
section
/-!
DEFINITION. The request encoders (41_frame_encode.md R103 to R110). None but `ENC.WMR` validates anything (R112).
-/

namespace Sys2Proof.Machine

/-- The payload of a read request and of WriteSingleRegister: two `be16` fields (30_encoding.md R62, R64). -/
def twoFields (a b : Half) : List Byte := be16 a ++ be16 b

/-- `ENC.RAW slave, fc` (R103). -/
def execEncRaw (slave fc : Byte) (s : State) : Result :=
  if s.cfg.bufBytes < s.pay.length + 4 then reject .ovf Op.encRaw.code s
  else emit slave fc s.pay s

/-- `ENC.RC` (R104). -/
def execEncRc (slave : Byte) (addr qty : Half) (s : State) : Result :=
  emit slave s.cfg.fcRc (twoFields addr qty) s

/-- `ENC.RDI` (R105). -/
def execEncRdi (slave : Byte) (addr qty : Half) (s : State) : Result :=
  emit slave s.cfg.fcRdi (twoFields addr qty) s

/-- `ENC.RHR` (R106). -/
def execEncRhr (slave : Byte) (addr qty : Half) (s : State) : Result :=
  emit slave s.cfg.fcRhr (twoFields addr qty) s

/-- `ENC.RIR` (R107). -/
def execEncRir (slave : Byte) (addr qty : Half) (s : State) : Result :=
  emit slave s.cfg.fcRir (twoFields addr qty) s

/-- `ENC.WSC` (R108). -/
def execEncWsc (slave : Byte) (coil : Half) (on : Bool) (s : State) : Result :=
  emit slave s.cfg.fcWsc (twoFields coil (coilValue on)) s

/-- `ENC.WSR` (R109). -/
def execEncWsr (slave : Byte) (reg value : Half) (s : State) : Result :=
  emit slave s.cfg.fcWsr (twoFields reg value) s

/-- `ENC.WMR` (R110): the three validations in the order of 60_exceptions.md R194; the block of 30_encoding.md R65
(90_conflicts.md C1); only the upper address bound (C3). -/
def execEncWmr (slave : Byte) (addr qty : Half) (s : State) : Result :=
  if s.cfg.addrMax.toNat < slave.toNat then reject .valSlave Op.encWmr.code s
  else if qty.toNat < Config.wmrQtyMin ∨ Config.wmrQtyMax < qty.toNat then
    reject .valQty Op.encWmr.code s
  else if s.pay.length ≠ 2 * qty.toNat then reject .valLen Op.encWmr.code s
  else emit slave s.cfg.fcWmr (twoFields addr qty ++ [byteCount qty] ++ s.pay) s

end Sys2Proof.Machine
end

