-- ==== Sys2Proof/Machine/LengthPredictor.lean ====
section
/-!
DEFINITION. The response-length predictor's command (43_length_predictor.md R151).
-/

namespace Sys2Proof.Machine

/-- `PRED` (R151): reads TX only, not the request latch; EXPLEN is 18 bits, which hold every prediction (R152). -/
def execPred (s : State) : Result :=
  match predict s.cfg s.tx with
  | none => fail .reqShort Op.pred.code s
  | some n => complete .ok (zext32 (BitVec.ofNat 18 n)) { s with expLen := BitVec.ofNat 18 n }

end Sys2Proof.Machine
end

