-- ==== Sys2Proof/Machine/Dispatch.lean ====
section
/-!
DEFINITION. The meaning of every command: one arm per constructor of Instr, each one call of that command's own definition.
-/

namespace Sys2Proof.Machine

def exec (i : Instr) (s : State) : Host.Outcome State Fault Refusal :=
  match i with
  | .nop => Sys2Proof.Machine.execNop s
  | .crcInit => Sys2Proof.Machine.execCrcInit s
  | .crcUpd d => Sys2Proof.Machine.execCrcUpd d s
  | .crcRd => Sys2Proof.Machine.execCrcRd s
  | .crcFrame => Sys2Proof.Machine.execCrcFrame s
  | .crcChk => Sys2Proof.Machine.execCrcChk s
  | .encRaw slave fc => Sys2Proof.Machine.execEncRaw slave fc s
  | .encRc slave addr qty => Sys2Proof.Machine.execEncRc slave addr qty s
  | .encRdi slave addr qty => Sys2Proof.Machine.execEncRdi slave addr qty s
  | .encRhr slave addr qty => Sys2Proof.Machine.execEncRhr slave addr qty s
  | .encRir slave addr qty => Sys2Proof.Machine.execEncRir slave addr qty s
  | .encWsc slave coil on => Sys2Proof.Machine.execEncWsc slave coil on s
  | .encWsr slave reg value => Sys2Proof.Machine.execEncWsr slave reg value s
  | .encWmr slave addr qty => Sys2Proof.Machine.execEncWmr slave addr qty s
  | .decBits => Sys2Proof.Machine.execDecBits s
  | .decRegs => Sys2Proof.Machine.execDecRegs s
  | .decWr => Sys2Proof.Machine.execDecWr s
  | .pred => Sys2Proof.Machine.execPred s
  | .pushPay d => Sys2Proof.Machine.execPushPay d s
  | .pushRx d => Sys2Proof.Machine.execPushRx d s
  | .clrPay => Sys2Proof.Machine.execClrPay s
  | .clrRx => Sys2Proof.Machine.execClrRx s
  | .rdTx k => Sys2Proof.Machine.execRdTx k s
  | .rdRx k => Sys2Proof.Machine.execRdRx k s
  | .rdOut k => Sys2Proof.Machine.execRdOut k s
  | .rdReg k => Sys2Proof.Machine.execRdReg k s
  | .rdSr n => Sys2Proof.Machine.execRdSr n s
  | .clrErr => Sys2Proof.Machine.execClrErr s
  | .srst => Sys2Proof.Machine.execSrst s

end Sys2Proof.Machine
end

