-- ==== Sys2Proof/Machine/Step.lean ====
section
/-!
DEFINITION. One step of the block: it takes the oldest thing the host has presented and executes it (00_scope.md R5, R9).
-/

namespace Sys2Proof.Machine

/-- One step (00_scope.md R5): a legal command word is executed, an illegal one fails with `E_ILLCMD` (30_encoding.md R73), a
reset assertion resets (70_reset_and_hazards.md R220); with nothing presented the block is idle (00_scope.md R9). -/
def step (s : State) : Host.Outcome State Fault Refusal :=
  match s.takeInput with
  | none => execIdle s
  | some (.reset _, t) => execReset t
  | some (.command w, t) =>
    match decode w with
    | .command i => exec i t
    | .illegal _ => execIllegal w t

/-- `s` with the given command word presented, to be taken by the very next step (DESIGN CHOICE, log 9). -/
def State.withFetchWord (s : State) (nbits w : Nat) : State := s.present (tableWord nbits w)

end Sys2Proof.Machine
end

