-- ==== Sys2Proof/Machine/Assembler.lean ====
section
/-!
DEFINITION. The assembler syntax and the pseudo-commands (30_encoding.md R74, R75): text for a command, and the expansion of
each macro into commands. No step calls these definitions.
-/

namespace Sys2Proof.Machine

/-- The mnemonic of a row (30_encoding.md R72). -/
def mnemonic : Op → String
  | .nop => "NOP"
  | .crcInit => "CRC.INIT"
  | .crcUpd => "CRC.UPD"
  | .crcRd => "CRC.RD"
  | .crcFrame => "CRC.FRAME"
  | .crcChk => "CRC.CHK"
  | .encRaw => "ENC.RAW"
  | .encRc => "ENC.RC"
  | .encRdi => "ENC.RDI"
  | .encRhr => "ENC.RHR"
  | .encRir => "ENC.RIR"
  | .encWsc => "ENC.WSC"
  | .encWsr => "ENC.WSR"
  | .encWmr => "ENC.WMR"
  | .decBits => "DEC.BITS"
  | .decRegs => "DEC.REGS"
  | .decWr => "DEC.WR"
  | .pred => "PRED"
  | .pushPay => "PUSH.PAY"
  | .pushRx => "PUSH.RX"
  | .clrPay => "CLR.PAY"
  | .clrRx => "CLR.RX"
  | .rdTx => "RD.TX"
  | .rdRx => "RD.RX"
  | .rdOut => "RD.OUT"
  | .rdReg => "RD.REG"
  | .rdSr => "RD.SR"
  | .clrErr => "CLR.ERR"
  | .srst => "SRST"

/-- The operands in the order `s`, `a`, `b`, "leaving out the fields the command does not use" (R74). -/
def operands : Instr → List Nat
  | .crcUpd d | .pushPay d | .pushRx d => [d.toNat]
  | .encRaw slave fc => [slave.toNat, fc.toNat]
  | .encRc s a b | .encRdi s a b | .encRhr s a b | .encRir s a b | .encWsr s a b | .encWmr s a b =>
    [s.toNat, a.toNat, b.toNat]
  | .encWsc s a on => [s.toNat, a.toNat, on.toNat]
  | .rdTx k | .rdRx k | .rdOut k | .rdReg k | .rdSr k => [k.toNat]
  | .nop | .crcInit | .crcRd | .crcFrame | .crcChk | .decBits | .decRegs | .decWr | .pred
  | .clrPay | .clrRx | .clrErr | .srst => []

/-- One line of assembly, numbers in decimal (R74). -/
def assemblyLine (i : Instr) : String :=
  match operands i with
  | [] => mnemonic i.op
  | xs => mnemonic i.op ++ " " ++ ", ".intercalate (xs.map (fun n => toString n))

/-- What the host presents to have the commands executed, in order. -/
def presented (is : List Instr) : List HostInput := is.map (fun i => .command (encode i))

/-- `LOAD.PAY b0, ..., bk` (R75). -/
def loadPay (bytes : List Byte) : List Instr := .clrPay :: bytes.map .pushPay

/-- `LOAD.RX b0, ..., bk` (R75). -/
def loadRx (bytes : List Byte) : List Instr := .clrRx :: bytes.map .pushRx

/-- `CRC16 b0, ..., bk` (R75). -/
def crc16Macro (bytes : List Byte) : List Instr := loadPay bytes ++ [.crcFrame]

/-- `CRC.STREAM b0, ..., bk` (R75). -/
def crcStream (bytes : List Byte) : List Instr := .crcInit :: bytes.map .crcUpd ++ [.crcRd]

end Sys2Proof.Machine
end

