-- ==== Sys2Proof/Machine/HostEnv.lean ====
section
/-!
DEFINITION. The host-environment rules (70_reset_and_hazards.md R228 to R230), which 00_scope.md R3 puts outside the block: "no
block state implements them and no block rule depends on them". They stand here as plain functions so that a claim about a
whole transaction can be stated; no step calls them. The host sleeps, the block has no time (R231).
-/

namespace Sys2Proof.Machine

/-- The host's own configuration (00_scope.md R4, the sentence after the table). The spec names these items and gives the
defaults of the multiplier and of the guard delay, but not the kind of number each is (91_not_in_source.md N14 says so of the
multiplier), nor a default of the log-enable flag: the types of the numeric fields and that default are the model's (DESIGN
CHOICE, log 11). -/
structure HostConfig where
  /-- baud rate; 0 is "unset" (R230); a natural number (DESIGN CHOICE, log 11) -/
  baud : Nat
  /-- "configurable safety multiplier (default 2×)" (R230); its type is not in the source (91_not_in_source.md N14): any rational
  number (DESIGN CHOICE, log 11) -/
  multiplier : Rat := 2
  /-- pre-send guard delay, "default 100ms" (R229); a natural number of milliseconds (DESIGN CHOICE, log 11) -/
  guardMs : Nat := 100
  /-- the log-enable flag (60_exceptions.md R202): a side channel; the spec gives no default, and `false` is the model's (DESIGN
  CHOICE, log 11) -/
  logEnable : Bool := false
  deriving DecidableEq, Repr

/-- The pre-send guard delay in microseconds, "independent of baud rate" (R229). -/
def preSendGuardUs (h : HostConfig) : Nat := h.guardMs * 1000

/-- The exact quotient, the default of the parameter `TIMING_DIV` (92_eei_decisions.md D26). -/
def exactDiv (a b : Nat) : Rat := (a : Rat) / (b : Rat)

/-- Character time in microseconds (R230), with the given division. -/
def charUs (div : Nat → Nat → Rat) (baud : Nat) : Rat :=
  if baud = 0 ∨ 19200 < baud then 750 else div 15000000 baud

/-- Frame time in microseconds (R230), with the given division. -/
def frameUs (div : Nat → Nat → Rat) (baud : Nat) : Rat :=
  if baud = 0 ∨ 19200 < baud then 1750 else div 35000000 baud

/-- The post-write wait in microseconds (R230), `total_byte_count = TXLEN + EXPLEN`; the division is a parameter because its
rounding is not stated, and the product is an exact rational number of microseconds, not rounded to a unit of sleep
(DESIGN CHOICE, log 11). -/
def postWriteWaitUs (div : Nat → Nat → Rat) (h : HostConfig) (txLen expLen : Nat) : Rat :=
  (charUs div h.baud * ((txLen + expLen : Nat) : Rat) + frameUs div h.baud) * h.multiplier

/-- The commands of one transaction in the order of R228: the request is built beforehand; (3) `CLR.RX`; (4) all of TX is read
out; (5) `PRED`; (6) `PUSH.RX` for each byte received; (7) the decode. Locking, sleeping and the transport are the host's. -/
def transaction (request : Instr) (txLen : Nat) (response : List Byte) (decodeWith : Instr) : List Instr :=
  [request, .clrRx] ++ (List.range txLen).map (fun k => .rdTx (BitVec.ofNat 16 k)) ++ [.pred]
    ++ response.map .pushRx ++ [decodeWith]

end Sys2Proof.Machine
end

