-- ==== Sys2Proof/Safety.lean ====
section
/-!
DEFINITION. The terms in which claims about the block are stated: the invariants of 10_state.md R27, what a failing command
may change (60_exceptions.md R192), what a successful encoder leaves (41_frame_encode.md R101), the two responses a slave
sends in answer to a request (30_encoding.md R66), and the agreement of states apart from named registers. None of these uses
the machine's own operations on states: they are written from the rules.
-/

namespace Sys2Proof.Machine

/-- R27 (I-b): a valid latch describes the frame in TX, and that frame carries its own CRC. -/
abbrev LatchDescribesTx (s : State) : Prop :=
  s.reqValid = true →
    4 ≤ s.tx.length ∧ s.tx[0]? = some s.reqSlave ∧ s.tx[1]? = some s.reqFc ∧
    s.tx[s.tx.length - 2]? = some ((crc16 (s.tx.take (s.tx.length - 2))).extractLsb' 0 8) ∧
    s.tx[s.tx.length - 1]? = some ((crc16 (s.tx.take (s.tx.length - 2))).extractLsb' 8 8)

/-- R27 (I-c): an invalid latch is zero. -/
abbrev InvalidLatchIsZero (s : State) : Prop :=
  s.reqValid = false → s.reqSlave = 0 ∧ s.reqFc = 0

/-- R27 (I-d): no recorded error, no recorded command (the converse does not hold, 90_conflicts.md C9). -/
abbrev NoCauseNoCommand (s : State) : Prop := s.ecause = 0 → s.ecmd = 0

/-- R27 (I-e): ECAUSE is never 14 or 15. -/
abbrev CauseIsAssigned (s : State) : Prop := s.ecause ≠ 14 ∧ s.ecause ≠ 15

/-- The invariants of R27 together, of an instance that keeps the constraints of 00_scope.md R4. -/
structure Invariants (s : State) : Prop where
  config : s.cfg.wf
  buffers : Memory.wf s
  latch : LatchDescribesTx s
  noLatch : InvalidLatchIsZero s
  noCause : NoCauseNoCommand s
  cause : CauseIsAssigned s

/-- From `s`, a failure with the given code, of a command whose top byte is `opcode`, leads to `t` (60_exceptions.md R190,
R192): the completion is `(code, 0)`; the first-error record is written only while it is empty; nothing else changes. -/
def FailedAs (code : Code) (opcode : Byte) (s t : State) : Prop :=
  (s.ecause = 0 →
    t = { s with ecause := code.bits, ecmd := opcode, trace := s.trace ++ [{ cc := code, res := 0 }] }) ∧
  (s.ecause ≠ 0 → t = { s with trace := s.trace ++ [{ cc := code, res := 0 }] })

/-- The command `i`, executed in `s`, fails with `code` after the writes that lead from `s` to `s'`. -/
def Fails (i : Instr) (s : State) (code : Code) (opcode : Byte) (s' : State) : Prop :=
  ∃ t, exec i s = .next t ∧ FailedAs code opcode s' t

/-- The block's registers and buffers hold the reset values of 10_state.md R28, and no buffer byte is readable. The constants
of the instance are not named: they keep their values. -/
def ResetValues (s : State) : Prop :=
  s.crc = 0xFFFF ∧ s.reqSlave = 0 ∧ s.reqFc = 0 ∧ s.reqValid = false ∧ s.crcOk = false ∧ s.expLen = 0 ∧
  s.ecause = 0 ∧ s.ecmd = 0 ∧ s.pay.length = 0 ∧ s.tx.length = 0 ∧ s.rx.length = 0 ∧ s.out.length = 0 ∧
  ∀ k : Half, Fails (.rdTx k) s .idx 0x48 s ∧ Fails (.rdRx k) s .idx 0x49 s ∧ Fails (.rdOut k) s .idx 0x4A s ∧
    Fails (.rdReg k) s .idx 0x4B s

/-- The failures each command can report: column "raised by" of 60_exceptions.md R191. -/
def failuresOf : Op → List Code
  | .encWmr => [.valSlave, .valQty, .valLen]
  | .decBits => [.frmShort, .frmAddr, .frmFc, .frmStrip, .noReq]
  | .decRegs => [.frmShort, .frmAddr, .frmFc, .frmStrip, .frmOdd, .noReq]
  | .decWr => [.frmShort, .frmAddr, .frmFc, .noReq]
  | .pushPay | .pushRx | .crcFrame | .encRaw => [.ovf]
  | .rdTx | .rdRx | .rdOut | .rdReg => [.idx]
  | .pred => [.reqShort]
  | .nop | .crcInit | .crcUpd | .crcRd | .crcChk | .encRc | .encRdi | .encRhr | .encRir | .encWsc | .encWsr
  | .clrPay | .clrRx | .rdSr | .clrErr | .srst => []

/-- The state a successful encoder leaves (41_frame_encode.md R101, 30_encoding.md R60): the frame with its CRC in TX, the
request latched, that CRC in CRC, the frame's length as the result; nothing else changes. -/
def framed (slave fc : Byte) (payload : List Byte) (s : State) : State :=
  { s with
    crc := crc16 (slave :: fc :: payload)
    tx := slave :: fc :: payload ++
      [(crc16 (slave :: fc :: payload)).extractLsb' 0 8, (crc16 (slave :: fc :: payload)).extractLsb' 8 8]
    reqSlave := slave, reqFc := fc, reqValid := true
    trace := s.trace ++ [{ cc := .ok, res := BitVec.ofNat 32 (payload.length + 4) }] }

/-- The state a failing encoder fails in (41_frame_encode.md R102, 40_crc_engine.md R87): no frame in TX, no request. -/
def unframed (s : State) : State :=
  { s with tx := [], reqSlave := 0, reqFc := 0, reqValid := false }

/-- `v[15:8]` then `v[7:0]`: a 16-bit field of a PDU (20_memory.md R42). -/
def field16 (v : Half) : List Byte := [v.extractLsb' 8 8, v.extractLsb' 0 8]

/-- A read response (30_encoding.md R66) with any byte-count field and any two trailer bytes. -/
def readResponse (slave fc count : Byte) (data : List Byte) (x y : Byte) : List Byte :=
  slave :: fc :: count :: data ++ [x, y]

/-- The header of RX agrees with the latched request (42_frame_decode.md R130, R133). -/
def ResponseAccepted (s : State) : Prop :=
  s.reqValid = true ∧ 4 ≤ s.rx.length ∧ s.rx[0]? = some s.reqSlave ∧ s.rx[1]? = some s.reqFc

/-- The failure that the checks common to all decoders report, in the order of 60_exceptions.md R194: `E_NOREQ`,
`E_FRM_SHORT`, `E_FRM_ADDR`, `E_FRM_FC`. -/
def ResponseRefused (s : State) (code : Code) : Prop :=
  if s.reqValid = false then code = .noReq
  else if s.rx.length < 4 then code = .frmShort
  else if s.rx[0]? ≠ some s.reqSlave then code = .frmAddr
  else if s.rx[1]? ≠ some s.reqFc then code = .frmFc
  else False

/-- `n` is the length predicted for the request `adu` (43_length_predictor.md R150), its clauses over byte indices. -/
def PredictedLength (cfg : Config) (adu : List Byte) (n : Nat) : Prop :=
  ∃ fc, adu[1]? = some fc ∧
    if fc = cfg.fcRc ∨ fc = cfg.fcRdi then
      ∃ h l, adu[4]? = some h ∧ adu[5]? = some l ∧ n = 4 + 1 + (256 * h.toNat + l.toNat + 7) / 8
    else if fc = cfg.fcRhr ∨ fc = cfg.fcRir then
      ∃ h l, adu[4]? = some h ∧ adu[5]? = some l ∧ n = 4 + 1 + 2 * (256 * h.toNat + l.toNat)
    else if fc ∈ cfg.writeFcSet then n = 4 + 4
    else n = 4

/-- The four function codes whose requests carry a quantity (43_length_predictor.md R151). -/
def readCodes (cfg : Config) : List Byte := [cfg.fcRc, cfg.fcRdi, cfg.fcRhr, cfg.fcRir]

/-- `v` is the value of status register `n`, bit for bit as the table of 10_state.md R26 lists it. -/
def StatusValue (s : State) (n : Nat) (v : Res) : Prop :=
  match n with
  | 0 => v.extractLsb' 0 4 = s.ecause ∧ v.extractLsb' 4 8 = s.ecmd ∧ v.getLsbD 12 = s.reqValid ∧
      v.getLsbD 13 = s.crcOk ∧ v.extractLsb' 14 18 = 0
  | 1 => v.extractLsb' 0 16 = s.crc ∧ v.extractLsb' 16 16 = 0
  | 2 => v.extractLsb' 0 8 = s.reqSlave ∧ v.extractLsb' 8 8 = s.reqFc ∧ v.extractLsb' 16 16 = 0
  | 3 => v = BitVec.ofNat 32 s.pay.length
  | 4 => v = BitVec.ofNat 32 s.tx.length
  | 5 => v = BitVec.ofNat 32 s.rx.length
  | 6 => v = BitVec.ofNat 32 s.out.length
  | 7 => v.extractLsb' 0 18 = s.expLen ∧ v.extractLsb' 18 14 = 0
  | 8 => v.extractLsb' 0 8 = s.cfg.addrMin ∧ v.extractLsb' 8 8 = s.cfg.addrMax ∧ v.extractLsb' 16 16 = 0
  | 9 => v = BitVec.ofNat 32 s.cfg.bufBytes
  | _ => False

/-- The commands that build a request (41_frame_encode.md R103 to R110). -/
def isEncoder : Op → Bool
  | .encRaw | .encRc | .encRdi | .encRhr | .encRir | .encWsc | .encWsr | .encWmr => true
  | .nop | .crcInit | .crcUpd | .crcRd | .crcFrame | .crcChk | .decBits | .decRegs | .decWr | .pred
  | .pushPay | .pushRx | .clrPay | .clrRx | .rdTx | .rdRx | .rdOut | .rdReg | .rdSr | .clrErr | .srst => false

/-- How many of the host's inputs are command words. -/
def commandCount (inputs : List HostInput) : Nat :=
  inputs.countP (fun x => match x with | .command _ => true | .reset _ => false)

end Sys2Proof.Machine
end

