-- ==== Sys2Proof/Certificates/Slice0/Obligations.lean ====
section
/-!
DEFINITION. The statements for the provers, each from a numbered rule of spec/. Record updates say the frame: every field not
named keeps its value. `Fails i s code opcode s'` says that the command fails with `code` in the state `s'`, which names the
writes of the failing path.
-/

open Sys2Proof Sys2Proof.Machine

/-! ## Words, steps, reset -/

/-- 00_scope.md R5: the block executes the command the host presents; with a word presented, one step is one `exec`. The second
clause says the same of a word placed by `withFetchWord`; that this places the word first in the list of presented words is the
model's choice (DESIGN CHOICE, log 9), and the list itself is (log 1). -/
def Obligations.StepExecutesTheDecodedCommand : Prop :=
  (∀ (s : State) (w : CmdWord) (rest : List HostInput) (i : Instr),
    s.port = .command w :: rest → decode w = .command i → step s = exec i { s with port := rest }) ∧
  (∀ (s : State) (w : CmdWord) (i : Instr),
    decode w = .command i → step (s.withFetchWord 48 w.toNat) = exec i s)

/-- 30_encoding.md R73: which words are illegal, and what an illegal word does. -/
def Obligations.IllegalWordsFailAndChangeNothingElse : Prop :=
  (∀ w : CmdWord, (∃ why, decode w = .illegal why) ↔
    (∀ op : Op, op.code ≠ w.extractLsb' 40 8) ∨
    (∃ op : Op, op.code = w.extractLsb' 40 8 ∧ w &&& op.mask ≠ op.matchWord) ∨
    (w.extractLsb' 40 8 = (0x50 : Byte) ∧ 9 < (w.extractLsb' 16 16).toNat)) ∧
  (∀ (s : State) (w : CmdWord) (rest : List HostInput) (why : Illegal),
    s.port = .command w :: rest → decode w = .illegal why →
    ∃ t, step s = .next t ∧ FailedAs .illCmd (w.extractLsb' 40 8) { s with port := rest } t)

/-- 30_encoding.md R72: a word selects a row exactly when `w AND mask = match`, with `a ≤ 9` for `RD.SR`, and no word matches
two rows. -/
def Obligations.WordsSelectRowsByMaskAndMatch : Prop :=
  ∀ w : CmdWord,
    (∀ op : Op, (∃ i, decode w = .command i ∧ i.op = op) ↔
      (w &&& op.mask = op.matchWord ∧ (op = .rdSr → (w.extractLsb' 16 16).toNat ≤ 9))) ∧
    (∀ op op' : Op, w &&& op.mask = op.matchWord → w &&& op'.mask = op'.matchWord → op = op')

/-- Decode and encode agree on every instruction, every operand at every value (30_encoding.md R70, R71, R72). -/
def Obligations.DecodeOfEncodeIsTheInstruction : Prop :=
  ∀ i : Instr, i.WellFormed = true → decode (encode i) = .command i

/-- Every legal word is the encoding of the instruction it decodes to, which is well formed: no bit of a word is dropped
(30_encoding.md R71, R73). -/
def Obligations.EncodeOfDecodeIsTheWord : Prop :=
  ∀ (w : CmdWord) (i : Instr), decode w = .command i → encode i = w ∧ i.WellFormed = true

/-- Words of each family, as 95_test_vectors.md spells them. -/
def Obligations.WordsOfTheSpecDecodeAsNamed : Prop :=
  decode 0x000000000000 = .command .nop ∧
  decode 0x020100000000 = .command (.crcUpd 0x01) ∧
  decode 0x130D00000010 = .command (.encRhr 13 0 16) ∧
  decode 0x100500070000 = .command (.encRaw 5 7) ∧
  decode 0x151100AC0001 = .command (.encWsc 17 0x00AC true) ∧
  decode 0x210000000000 = .command .decRegs ∧
  decode 0x300000000000 = .command .pred ∧
  decode 0x41AB00000000 = .command (.pushRx 0xAB) ∧
  decode 0x480000060000 = .command (.rdTx 6) ∧
  decode 0x500000090000 = .command (.rdSr 9) ∧
  decode 0x060000000000 = .illegal .unassignedOpcode ∧
  decode 0x100501070000 = .illegal .reservedBits ∧
  decode 0x5000000A0000 = .illegal .statusNumber

/-- 10_state.md R28: the values after reset, of the machine's reset state and after a reset assertion in any state; no buffer
byte is readable then, and the instance keeps its constants. -/
def Obligations.ResetLeavesTheResetValues : Prop :=
  ResetValues State.reset ∧
  ∀ (s : State) (words : List CmdWord) (rest : List HostInput), s.port = .reset words :: rest →
    ∃ t, step s = .next t ∧ ResetValues t ∧ t.cfg = s.cfg

/-- 70_reset_and_hazards.md R220, R221: a reset assertion puts every register into its reset value, keeps the instance's
constants, executes none of the words presented meanwhile and returns no completion record. That the host's later inputs and
the records already delivered stay is the model's choice (log 1, log 2). -/
def Obligations.ResetAssertionResetsTheBlock : Prop :=
  ∀ (s : State) (words : List CmdWord) (rest : List HostInput), s.port = .reset words :: rest →
    step s = .next { State.reset with cfg := s.cfg, port := rest, trace := s.trace }

/-- The idle block (00_scope.md R9: "the block is then idle"); that a step with nothing presented leaves the state as it is is
the model's reading (log 3). -/
def Obligations.IdleBlockKeepsItsState : Prop :=
  ∀ s : State, s.port = [] → step s = .next s

/-- 60_exceptions.md R191: the numbers and the source classes of the completion codes. -/
def Obligations.CompletionCodesHaveTheirNumbers : Prop :=
  [Code.ok, .illCmd, .valSlave, .valQty, .valLen, .frmShort, .frmAddr, .frmFc, .frmStrip, .frmOdd, .ovf, .idx, .noReq,
    .reqShort].map (fun c => c.bits.toNat) = List.range 14 ∧
  (∀ c : Code, c.sourceClass = some .validationError ↔ c = .valSlave ∨ c = .valQty ∨ c = .valLen) ∧
  (∀ c : Code, c.sourceClass = some .frameError ↔
    c = .frmShort ∨ c = .frmAddr ∨ c = .frmFc ∨ c = .frmStrip ∨ c = .frmOdd)

/-- 20_memory.md R42, R43, R44: fields and register data big-endian, the CRC trailer low byte first. -/
def Obligations.FieldsAreBigEndianAndTheTrailerIsNot : Prop :=
  (∀ v : Half, be16 v = [v.extractLsb' 8 8, v.extractLsb' 0 8]) ∧
  (∀ c : Half, crcTrailer c = [c.extractLsb' 0 8, c.extractLsb' 8 8]) ∧
  (∀ h l : Byte, (ofBe16 h l).toNat = 256 * h.toNat + l.toNat)

/-! ## CRC engine -/

/-- The vectors of 40_crc_engine.md R80, R81, R83. -/
def Obligations.CrcMeetsThePinnedVectors : Prop :=
  crcStep 0x0000 0x00 = 0x0000 ∧ crcStep 0x0000 0x01 = 0xC0C1 ∧ crcStep 0xFFFF 0xFF = 0x00FF ∧
  crcStep 0xFFFF 0x01 = 0x807E ∧ crc16 [] = 0xFFFF ∧
  crc16 [0x01, 0x03, 0x00, 0x00, 0x00, 0x02] = 0x0BC4 ∧
  crcAppend [0x01, 0x03, 0x00, 0x00, 0x00, 0x02] = [0x01, 0x03, 0x00, 0x00, 0x00, 0x02, 0xC4, 0x0B]

/-- 40_crc_engine.md R83 (a): `crc_step` is a bijection on the register for each byte, and `crc16` folds the last byte last. -/
def Obligations.CrcStepIsABijectionOnTheRegister : Prop :=
  (∀ d : Byte, Function.Bijective (fun r => crcStep r d)) ∧
  (∀ (data : List Byte) (d : Byte), crc16 (data ++ [d]) = crcStep (crc16 data) d)

/-- 40_crc_engine.md R83 (b), which the spec marks as general knowledge (93_implementation_defined.md G3): the zero residue. -/
def Obligations.CrcOfAFrameWithItsTrailerIsZero : Prop :=
  ∀ data : List Byte, crc16 (crcAppend data) = 0x0000

/-- A consequence of 40_crc_engine.md R83 (a) and R80: two messages that differ in one byte have different CRCs. -/
def Obligations.CrcTellsApartMessagesDifferingInOneByte : Prop :=
  ∀ (before after : List Byte) (x y : Byte), x ≠ y → crc16 (before ++ x :: after) ≠ crc16 (before ++ y :: after)

/-- 40_crc_engine.md R84. -/
def Obligations.CrcInitLoadsTheSeed : Prop :=
  decode 0x010000000000 = .command .crcInit ∧
  ∀ s : State, exec .crcInit s =
    .next { s with crc := 0xFFFF, trace := s.trace ++ [{ cc := .ok, res := 0 }] }

/-- 40_crc_engine.md R85. -/
def Obligations.CrcUpdFoldsOneByte : Prop :=
  (∀ d : Byte, decode (packWord 0x02 d 0 0) = .command (.crcUpd d)) ∧
  ∀ (s : State) (d : Byte), exec (.crcUpd d) s =
    .next { s with crc := crcStep s.crc d, trace := s.trace ++ [{ cc := .ok, res := (crcStep s.crc d).setWidth 32 }] }

/-- 40_crc_engine.md R86. -/
def Obligations.CrcRdReturnsTheRegister : Prop :=
  decode 0x030000000000 = .command .crcRd ∧
  ∀ s : State, exec .crcRd s = .next { s with trace := s.trace ++ [{ cc := .ok, res := s.crc.setWidth 32 }] }

/-- 40_crc_engine.md R87. -/
def Obligations.CrcFrameAppendsTheTrailerOrOverflows : Prop :=
  decode 0x040000000000 = .command .crcFrame ∧
  ∀ s : State,
    (s.pay.length + 2 ≤ s.cfg.bufBytes → exec .crcFrame s =
      .next { s with
        crc := crc16 s.pay
        tx := s.pay ++ [(crc16 s.pay).extractLsb' 0 8, (crc16 s.pay).extractLsb' 8 8]
        reqSlave := 0, reqFc := 0, reqValid := false
        trace := s.trace ++ [{ cc := .ok, res := BitVec.ofNat 32 (s.pay.length + 2) }] }) ∧
    (s.cfg.bufBytes < s.pay.length + 2 → Fails .crcFrame s .ovf 0x04 (unframed s))

/-- 40_crc_engine.md R88. -/
def Obligations.CrcChkComparesTheTrailer : Prop :=
  decode 0x050000000000 = .command .crcChk ∧
  ∀ s : State,
    (s.rx.length < 2 → exec .crcChk s =
      .next { s with crcOk := false, trace := s.trace ++ [{ cc := .ok, res := 0 }] }) ∧
    (∀ (data : List Byte) (x y : Byte), s.rx = data ++ [x, y] →
      x = (crc16 data).extractLsb' 0 8 ∧ y = (crc16 data).extractLsb' 8 8 →
      exec .crcChk s =
        .next { s with crc := crc16 data, crcOk := true, trace := s.trace ++ [{ cc := .ok, res := 1 }] }) ∧
    (∀ (data : List Byte) (x y : Byte), s.rx = data ++ [x, y] →
      ¬ (x = (crc16 data).extractLsb' 0 8 ∧ y = (crc16 data).extractLsb' 8 8) →
      exec .crcChk s =
        .next { s with crc := crc16 data, crcOk := false, trace := s.trace ++ [{ cc := .ok, res := 0 }] })

/-- 40_crc_engine.md R88 with R82: `CRC.CHK` sets CRC_OK exactly when RX is some data with its CRC appended. -/
def Obligations.CrcOkMeansRxIsDataWithItsCrc : Prop :=
  ∀ s : State, ∃ t, exec .crcChk s = .next t ∧ (t.crcOk = true ↔ ∃ data, s.rx = crcAppend data)

/-- 30_encoding.md R75 with 40_crc_engine.md R84 to R87 and 44_buffer_and_system.md R161, R163: the streamed CRC of a byte sequence is `crc16` of it, and
`CRC16` leaves the same value in CRC and TX. -/
def Obligations.StreamedCrcEqualsFramedCrc : Prop :=
  ∀ (s : State) (bytes : List Byte) (rest : List HostInput),
    ∃ t, Host.Core.run Sys2Proof.core (bytes.length + 2) { s with port := presented (crcStream bytes) ++ rest } = .next t ∧
      t.port = rest ∧ t.crc = crc16 bytes ∧
      t.trace.getLast? = some { cc := .ok, res := (crc16 bytes).setWidth 32 } ∧
      (bytes.length + 2 ≤ s.cfg.bufBytes →
        ∃ u, Host.Core.run Sys2Proof.core (bytes.length + 2) { s with port := presented (crc16Macro bytes) ++ rest } = .next u ∧
          u.port = rest ∧ u.crc = t.crc ∧ u.tx = bytes ++ [t.crc.extractLsb' 0 8, t.crc.extractLsb' 8 8])

/-! ## Request framing -/

/-- 41_frame_encode.md R103. -/
def Obligations.EncRawFramesThePayloadOrOverflows : Prop :=
  (∀ slave fc : Byte, decode (packWord 0x10 slave ((0 : Byte) ++ fc) 0) = .command (.encRaw slave fc)) ∧
  ∀ (s : State) (slave fc : Byte),
    (s.pay.length + 4 ≤ s.cfg.bufBytes → exec (.encRaw slave fc) s = .next (framed slave fc s.pay s)) ∧
    (s.cfg.bufBytes < s.pay.length + 4 → Fails (.encRaw slave fc) s .ovf 0x10 (unframed s))

/-- 41_frame_encode.md R104 to R107, 30_encoding.md R62: the four read requests, for every operand value. -/
def Obligations.ReadRequestsAreFramed : Prop :=
  ∀ (s : State) (slave : Byte) (addr qty : Half),
    decode (packWord 0x11 slave addr qty) = .command (.encRc slave addr qty) ∧
    decode (packWord 0x12 slave addr qty) = .command (.encRdi slave addr qty) ∧
    decode (packWord 0x13 slave addr qty) = .command (.encRhr slave addr qty) ∧
    decode (packWord 0x14 slave addr qty) = .command (.encRir slave addr qty) ∧
    exec (.encRc slave addr qty) s = .next (framed slave s.cfg.fcRc (field16 addr ++ field16 qty) s) ∧
    exec (.encRdi slave addr qty) s = .next (framed slave s.cfg.fcRdi (field16 addr ++ field16 qty) s) ∧
    exec (.encRhr slave addr qty) s = .next (framed slave s.cfg.fcRhr (field16 addr ++ field16 qty) s) ∧
    exec (.encRir slave addr qty) s = .next (framed slave s.cfg.fcRir (field16 addr ++ field16 qty) s)

/-- 41_frame_encode.md R108, 30_encoding.md R63; a word with any other `b` is illegal. -/
def Obligations.WriteSingleCoilIsFramed : Prop :=
  ∀ (s : State) (slave : Byte) (coil : Half),
    decode (packWord 0x15 slave coil 1) = .command (.encWsc slave coil true) ∧
    decode (packWord 0x15 slave coil 0) = .command (.encWsc slave coil false) ∧
    exec (.encWsc slave coil true) s = .next (framed slave s.cfg.fcWsc (field16 coil ++ [0xFF, 0x00]) s) ∧
    exec (.encWsc slave coil false) s = .next (framed slave s.cfg.fcWsc (field16 coil ++ [0x00, 0x00]) s) ∧
    (∀ b : Half, b ≠ 1 → b ≠ 0 → decode (packWord 0x15 slave coil b) = .illegal .reservedBits)

/-- 41_frame_encode.md R109, 30_encoding.md R64. -/
def Obligations.WriteSingleRegisterIsFramed : Prop :=
  ∀ (s : State) (slave : Byte) (reg value : Half),
    decode (packWord 0x16 slave reg value) = .command (.encWsr slave reg value) ∧
    exec (.encWsr slave reg value) s = .next (framed slave s.cfg.fcWsr (field16 reg ++ field16 value) s)

/-- 41_frame_encode.md R110, 30_encoding.md R65: the validations in their order, and the frame. -/
def Obligations.WriteMultipleRegistersIsValidatedAndFramed : Prop :=
  (∀ (slave : Byte) (addr qty : Half), decode (packWord 0x17 slave addr qty) = .command (.encWmr slave addr qty)) ∧
  ∀ (s : State) (slave : Byte) (addr qty : Half),
    if s.cfg.addrMax.toNat < slave.toNat then Fails (.encWmr slave addr qty) s .valSlave 0x17 (unframed s)
    else if qty.toNat < 1 ∨ 123 < qty.toNat then Fails (.encWmr slave addr qty) s .valQty 0x17 (unframed s)
    else if s.pay.length ≠ 2 * qty.toNat then Fails (.encWmr slave addr qty) s .valLen 0x17 (unframed s)
    else exec (.encWmr slave addr qty) s =
      .next (framed slave s.cfg.fcWmr (field16 addr ++ field16 qty ++ [BitVec.ofNat 8 (2 * qty.toNat)] ++ s.pay) s)

/-- 41_frame_encode.md R111: a frame depends on the operands, the parameters and PAY alone. -/
def Obligations.EncodingTwiceGivesTheSameFrame : Prop :=
  ∀ (i : Instr) (s s' t t' : State), isEncoder i.op = true → s.cfg = s'.cfg → s.pay = s'.pay →
    exec i s = .next t → exec i s' = .next t' →
    t.tx = t'.tx ∧ t.reqSlave = t'.reqSlave ∧ t.reqFc = t'.reqFc ∧ t.reqValid = t'.reqValid ∧
    ∃ c, t.trace = s.trace ++ [c] ∧ t'.trace = s'.trace ++ [c]

/-- 41_frame_encode.md R102, 40_crc_engine.md R87, 70_reset_and_hazards.md R226, 42_frame_decode.md R133: after a failing frame
builder nothing can be read out of TX to be sent, and none of the three decoders accepts a response. -/
def Obligations.FailedFrameBuilderLeavesNothingToSend : Prop :=
  ∀ (i : Instr) (s t : State) (c : Completion), isEncoder i.op = true ∨ i = .crcFrame →
    exec i s = .next t → t.trace = s.trace ++ [c] → c.cc ≠ .ok →
    t.tx = [] ∧ t.reqValid = false ∧ t.crc = s.crc ∧
    (∀ k : Half, Fails (.rdTx k) t .idx 0x48 t) ∧
    Fails .decBits t .noReq 0x20 { t with out := [] } ∧
    Fails .decRegs t .noReq 0x21 { t with out := [] } ∧
    Fails .decWr t .noReq 0x22 { t with out := [] }

/-! ## Response decode -/

/-- 42_frame_decode.md R134, R130, R131. -/
def Obligations.DecBitsChecksAndStrips : Prop :=
  decode 0x200000000000 = .command .decBits ∧
  ∀ s : State,
    (∀ code, ResponseRefused s code → Fails .decBits s code 0x20 { s with out := [] }) ∧
    (ResponseAccepted s → s.rx.length = 4 → Fails .decBits s .frmStrip 0x20 { s with out := [] }) ∧
    (ResponseAccepted s → ∀ (a b n : Byte) (data : List Byte) (x y : Byte), s.rx = a :: b :: n :: data ++ [x, y] →
      exec .decBits s = .next { s with
        out := data, trace := s.trace ++ [{ cc := .ok, res := BitVec.ofNat 32 data.length }] })

/-- 42_frame_decode.md R135, R130, R131, R132. -/
def Obligations.DecRegsChecksStripsAndWantsPairs : Prop :=
  decode 0x210000000000 = .command .decRegs ∧
  ∀ s : State,
    (∀ code, ResponseRefused s code → Fails .decRegs s code 0x21 { s with out := [] }) ∧
    (ResponseAccepted s → s.rx.length = 4 → Fails .decRegs s .frmStrip 0x21 { s with out := [] }) ∧
    (ResponseAccepted s → ∀ (a b n : Byte) (data : List Byte) (x y : Byte), s.rx = a :: b :: n :: data ++ [x, y] →
      if data.length % 2 = 1 then Fails .decRegs s .frmOdd 0x21 { s with out := [] }
      else exec .decRegs s = .next { s with
        out := data, trace := s.trace ++ [{ cc := .ok, res := BitVec.ofNat 32 (data.length / 2) }] })

/-- 42_frame_decode.md R136, R130. -/
def Obligations.DecWrChecksTheHeaderOnly : Prop :=
  decode 0x220000000000 = .command .decWr ∧
  ∀ s : State,
    (∀ code, ResponseRefused s code → Fails .decWr s code 0x22 { s with out := [] }) ∧
    (ResponseAccepted s → exec .decWr s =
      .next { s with out := [], trace := s.trace ++ [{ cc := .ok, res := 0 }] })

/-- 42_frame_decode.md R137: a response with the request's function code and bit 7 set fails every decode with `E_FRM_FC`, and
`RD.RX 1` and `RD.RX 2` then read the function code and the exception code. -/
def Obligations.ExceptionResponsesAreFunctionCodeMismatches : Prop :=
  ∀ (s : State) (code x : Byte) (more : List Byte), s.reqValid = true → s.reqFc.getLsbD 7 = false →
    s.rx = s.reqSlave :: (s.reqFc ||| 0x80) :: code :: x :: more →
    ∀ (i : Instr) (opcode : Byte), (i, opcode) ∈ [(Instr.decBits, (0x20 : Byte)), (.decRegs, 0x21), (.decWr, 0x22)] →
      ∃ t, exec i s = .next t ∧ FailedAs .frmFc opcode { s with out := [] } t ∧
        exec (.rdRx 1) t =
          .next { t with trace := t.trace ++ [{ cc := .ok, res := (s.reqFc ||| 0x80).setWidth 32 }] } ∧
        exec (.rdRx 2) t = .next { t with trace := t.trace ++ [{ cc := .ok, res := code.setWidth 32 }] }

/-- 20_memory.md R44, 42_frame_decode.md R135, 44_buffer_and_system.md R168: register values carried big-endian in a response
come back, in order, from `DEC.REGS` and `RD.REG`; an index past them fails. -/
def Obligations.RegisterValuesOfAResponseComeBack : Prop :=
  ∀ (s : State) (values : List Half) (count x y : Byte), s.reqValid = true →
    s.rx = readResponse s.reqSlave s.reqFc count (values.flatMap field16) x y →
    ∃ t, exec .decRegs s = .next t ∧ t.out = values.flatMap field16 ∧
      t.trace = s.trace ++ [{ cc := .ok, res := BitVec.ofNat 32 values.length }] ∧
      (∀ (k : Half) (v : Half), values[k.toNat]? = some v →
        exec (.rdReg k) t = .next { t with trace := t.trace ++ [{ cc := .ok, res := v.setWidth 32 }] }) ∧
      (∀ k : Half, values.length ≤ k.toNat → Fails (.rdReg k) t .idx 0x4B t)

/-! ## Length predictor -/

/-- 43_length_predictor.md R151, R150. -/
def Obligations.PredPredictsFromTheFrameInTx : Prop :=
  decode 0x300000000000 = .command .pred ∧
  ∀ s : State,
    (s.tx.length < 4 → Fails .pred s .reqShort 0x30 s) ∧
    (∀ fc, s.tx[1]? = some fc → fc ∈ readCodes s.cfg → s.tx.length < 6 → Fails .pred s .reqShort 0x30 s) ∧
    (∀ fc, 4 ≤ s.tx.length → s.tx[1]? = some fc → (fc ∈ readCodes s.cfg → 6 ≤ s.tx.length) →
      ∃ n, PredictedLength s.cfg s.tx n ∧ exec .pred s = .next { s with
        expLen := BitVec.ofNat 18 n, trace := s.trace ++ [{ cc := .ok, res := BitVec.ofNat 32 n }] })

/-- 43_length_predictor.md R152: the prediction ranges over 4 .. 131075 and EXPLEN and the result hold it exactly. -/
def Obligations.PredictionNeverWraps : Prop :=
  ∀ (s : State) (n : Nat), 4 ≤ s.tx.length → PredictedLength s.cfg s.tx n →
    4 ≤ n ∧ n ≤ 131075 ∧
    ∃ t c, exec .pred s = .next t ∧ t.expLen.toNat = n ∧ t.trace = s.trace ++ [c] ∧ c.cc = .ok ∧ c.res.toNat = n

/-- 43_length_predictor.md R150, R153 with 30_encoding.md R66: for a read request, EXPLEN is the length of the normal
response. -/
def Obligations.PredictedLengthIsThatOfTheNormalResponse : Prop :=
  ∀ (s : State) (slave : Byte) (addr qty : Half) (data : List Byte) (count x y : Byte), s.cfg.wf →
    (data.length = (qty.toNat + 7) / 8 →
      (∃ t u, exec (.encRc slave addr qty) s = .next t ∧ exec .pred t = .next u ∧
        u.expLen.toNat = (readResponse slave s.cfg.fcRc count data x y).length) ∧
      (∃ t u, exec (.encRdi slave addr qty) s = .next t ∧ exec .pred t = .next u ∧
        u.expLen.toNat = (readResponse slave s.cfg.fcRdi count data x y).length)) ∧
    (data.length = 2 * qty.toNat →
      (∃ t u, exec (.encRhr slave addr qty) s = .next t ∧ exec .pred t = .next u ∧
        u.expLen.toNat = (readResponse slave s.cfg.fcRhr count data x y).length) ∧
      (∃ t u, exec (.encRir slave addr qty) s = .next t ∧ exec .pred t = .next u ∧
        u.expLen.toNat = (readResponse slave s.cfg.fcRir count data x y).length))

/-! ## Buffers and system commands -/

/-- 44_buffer_and_system.md R160. -/
def Obligations.NopChangesNothing : Prop :=
  decode 0x000000000000 = .command .nop ∧
  ∀ s : State, exec .nop s = .next { s with trace := s.trace ++ [{ cc := .ok, res := 0 }] }

/-- 44_buffer_and_system.md R161, R163. -/
def Obligations.PayIsAppendedToAndEmptied : Prop :=
  (∀ d : Byte, decode (packWord 0x40 d 0 0) = .command (.pushPay d)) ∧ decode 0x420000000000 = .command .clrPay ∧
  ∀ (s : State) (d : Byte),
    (s.pay.length = s.cfg.bufBytes → Fails (.pushPay d) s .ovf 0x40 s) ∧
    (s.pay.length ≠ s.cfg.bufBytes → exec (.pushPay d) s = .next { s with
      pay := s.pay ++ [d], trace := s.trace ++ [{ cc := .ok, res := BitVec.ofNat 32 (s.pay.length + 1) }] }) ∧
    exec .clrPay s = .next { s with pay := [], trace := s.trace ++ [{ cc := .ok, res := 0 }] }

/-- 44_buffer_and_system.md R162, R164. -/
def Obligations.RxIsAppendedToAndEmptied : Prop :=
  (∀ d : Byte, decode (packWord 0x41 d 0 0) = .command (.pushRx d)) ∧ decode 0x430000000000 = .command .clrRx ∧
  ∀ (s : State) (d : Byte),
    (s.rx.length = s.cfg.bufBytes → Fails (.pushRx d) s .ovf 0x41 s) ∧
    (s.rx.length ≠ s.cfg.bufBytes → exec (.pushRx d) s = .next { s with
      rx := s.rx ++ [d], crcOk := false
      trace := s.trace ++ [{ cc := .ok, res := BitVec.ofNat 32 (s.rx.length + 1) }] }) ∧
    exec .clrRx s = .next { s with rx := [], crcOk := false, trace := s.trace ++ [{ cc := .ok, res := 0 }] }

/-- 44_buffer_and_system.md R165, R166, R167. -/
def Obligations.ByteReadsReturnTheByteOrFail : Prop :=
  ∀ (s : State) (k : Half),
    decode (packWord 0x48 0 k 0) = .command (.rdTx k) ∧
    decode (packWord 0x49 0 k 0) = .command (.rdRx k) ∧
    decode (packWord 0x4A 0 k 0) = .command (.rdOut k) ∧
    (∀ d, s.tx[k.toNat]? = some d →
      exec (.rdTx k) s = .next { s with trace := s.trace ++ [{ cc := .ok, res := d.setWidth 32 }] }) ∧
    (∀ d, s.rx[k.toNat]? = some d →
      exec (.rdRx k) s = .next { s with trace := s.trace ++ [{ cc := .ok, res := d.setWidth 32 }] }) ∧
    (∀ d, s.out[k.toNat]? = some d →
      exec (.rdOut k) s = .next { s with trace := s.trace ++ [{ cc := .ok, res := d.setWidth 32 }] }) ∧
    (s.tx.length ≤ k.toNat → Fails (.rdTx k) s .idx 0x48 s) ∧
    (s.rx.length ≤ k.toNat → Fails (.rdRx k) s .idx 0x49 s) ∧
    (s.out.length ≤ k.toNat → Fails (.rdOut k) s .idx 0x4A s)

/-- 44_buffer_and_system.md R168: the value, the index bound without wrap, and its agreement with `regs` (42_frame_decode.md
R132). -/
def Obligations.RdRegReturnsTheBigEndianPair : Prop :=
  ∀ (s : State) (k : Half),
    decode (packWord 0x4B 0 k 0) = .command (.rdReg k) ∧
    (∀ h l : Byte, s.out[2 * k.toNat]? = some h → s.out[2 * k.toNat + 1]? = some l →
      (regs s.out)[k.toNat]? = some (ofBe16 h l) ∧
      exec (.rdReg k) s =
        .next { s with trace := s.trace ++ [{ cc := .ok, res := BitVec.ofNat 32 (256 * h.toNat + l.toNat) }] }) ∧
    (s.out.length ≤ 2 * k.toNat + 1 → (regs s.out)[k.toNat]? = none ∧ Fails (.rdReg k) s .idx 0x4B s)

/-- 44_buffer_and_system.md R169, 10_state.md R26. -/
def Obligations.RdSrReturnsTheStatusRegister : Prop :=
  ∀ (s : State) (n : Half),
    (n.toNat ≤ 9 → decode (packWord 0x50 0 n 0) = .command (.rdSr n) ∧
      ∃ v, StatusValue s n.toNat v ∧ exec (.rdSr n) s = .next { s with trace := s.trace ++ [{ cc := .ok, res := v }] }) ∧
    (9 < n.toNat → ∀ rest : List HostInput, ∃ t,
      step { s with port := .command (packWord 0x50 0 n 0) :: rest } = .next t ∧
      FailedAs .illCmd 0x50 { s with port := rest } t)

/-- 44_buffer_and_system.md R170. -/
def Obligations.ClrErrClearsTheFirstErrorRecord : Prop :=
  decode 0x510000000000 = .command .clrErr ∧
  ∀ s : State, exec .clrErr s =
    .next { s with ecause := 0, ecmd := 0, trace := s.trace ++ [{ cc := .ok, res := 0 }] }

/-- 44_buffer_and_system.md R171, 70_reset_and_hazards.md R221: the block's state after `SRST`. That the host's later inputs and
the records already delivered stay is the model's choice (log 1, log 2). -/
def Obligations.SrstPutsTheBlockIntoItsResetState : Prop :=
  decode 0x5F0000000000 = .command .srst ∧
  ∀ s : State, exec .srst s = .next { State.reset with
    cfg := s.cfg, port := s.port, trace := s.trace ++ [{ cc := .ok, res := 0 }] }

/-- 30_encoding.md R75 with 44_buffer_and_system.md R161 to R164: `LOAD.PAY` and `LOAD.RX` leave exactly their operands in the
buffer, whatever it held, and change nothing else but CRC_OK. -/
def Obligations.LoadingReplacesTheBuffer : Prop :=
  ∀ (s : State) (bytes : List Byte) (rest : List HostInput), bytes.length ≤ s.cfg.bufBytes →
    Host.Core.run Sys2Proof.core (bytes.length + 1) { s with port := presented (loadPay bytes) ++ rest } =
      .next { s with
        pay := bytes, port := rest
        trace := s.trace ++ { cc := .ok, res := 0 } ::
          (List.range bytes.length).map (fun k => { cc := .ok, res := BitVec.ofNat 32 (k + 1) }) } ∧
    Host.Core.run Sys2Proof.core (bytes.length + 1) { s with port := presented (loadRx bytes) ++ rest } =
      .next { s with
        rx := bytes, crcOk := false, port := rest
        trace := s.trace ++ { cc := .ok, res := 0 } ::
          (List.range bytes.length).map (fun k => { cc := .ok, res := BitVec.ofNat 32 (k + 1) }) }

/-! ## The whole machine -/

/-- 60_exceptions.md R190: every command returns exactly one completion record, with `res = 0` on a failure; 10_state.md R20:
no command writes a parameter. That the records already delivered and the host's later inputs stay, under `SRST` too, is the
model's choice (DESIGN CHOICE, log 1 and log 2). -/
def Obligations.EveryCommandReturnsOneCompletionRecord : Prop :=
  ∀ (i : Instr) (s : State), ∃ t c, exec i s = .next t ∧ t.trace = s.trace ++ [c] ∧ (c.cc ≠ .ok → c.res = 0) ∧
    t.cfg = s.cfg ∧ t.port = s.port

/-- 60_exceptions.md R191, column "raised by": a well-formed command succeeds or fails with one of its own codes. -/
def Obligations.CommandsFailOnlyWithTheirOwnCodes : Prop :=
  ∀ (i : Instr) (s t : State) (c : Completion), i.WellFormed = true →
    exec i s = .next t → t.trace = s.trace ++ [c] → c.cc = .ok ∨ c.cc ∈ failuresOf i.op

/-- 60_exceptions.md R192, R195, 10_state.md R17: for every word presented, the first failure is recorded with the word's top
byte, a later one is not, a success leaves the record alone, and `CLR.ERR` and `SRST` clear it. -/
def Obligations.FirstErrorRecordKeepsTheFirstFailure : Prop :=
  ∀ (s t : State) (w : CmdWord) (rest : List HostInput) (c : Completion), s.port = .command w :: rest →
    step s = .next t → t.trace = s.trace ++ [c] →
    if c.cc ≠ .ok then
      if s.ecause = 0 then t.ecause = c.cc.bits ∧ t.ecmd = w.extractLsb' 40 8
      else t.ecause = s.ecause ∧ t.ecmd = s.ecmd
    else if decode w = .command .clrErr ∨ decode w = .command .srst then t.ecause = 0 ∧ t.ecmd = 0
    else t.ecause = s.ecause ∧ t.ecmd = s.ecmd

/-- 10_state.md R17, 60_exceptions.md R195: the first-error record never changes what a word does; `RD.SR 0`, which reads it,
is the one exception. -/
def Obligations.ErrorRecordNeverChangesExecution : Prop :=
  ∀ (s t t' : State) (w : CmdWord) (rest : List HostInput) (cause : BitVec 4) (cmd : Byte), s.port = .command w :: rest →
    decode w ≠ .command (.rdSr 0) → step s = .next t → step { s with ecause := cause, ecmd := cmd } = .next t' →
    t' = { t with ecause := t'.ecause, ecmd := t'.ecmd }

/-- 10_state.md R13: no command but `CRC.UPD`, `CRC.RD` and `RD.SR 1` reads CRC. -/
def Obligations.CrcRegisterHasThreeReaders : Prop :=
  ∀ (i : Instr) (s t t' : State) (v : Half), (∀ d, i ≠ .crcUpd d) → i ≠ .crcRd → i ≠ .rdSr 1 →
    exec i s = .next t → exec i { s with crc := v } = .next t' →
    t' = { t with crc := t'.crc } ∧ (t'.crc = t.crc ∨ (t.crc = s.crc ∧ t'.crc = v))

/-- 10_state.md R15, R16, 42_frame_decode.md R138: no command but `RD.SR 0` reads CRC_OK and none but `RD.SR 7` reads EXPLEN.
Two states that differ in them alone go to states that differ in them at most, and in each of them only where the command
leaves it as it was. -/
def Obligations.CrcOkAndExpLenAreReadByRdSrAlone : Prop :=
  ∀ (i : Instr) (s t t' : State) (ok : Bool) (len : BitVec 18), i ≠ .rdSr 0 → i ≠ .rdSr 7 →
    exec i s = .next t → exec i { s with crcOk := ok, expLen := len } = .next t' →
    t' = { t with crcOk := t'.crcOk, expLen := t'.expLen } ∧
    (t'.crcOk = t.crcOk ∨ (t.crcOk = s.crcOk ∧ t'.crcOk = ok)) ∧
    (t'.expLen = t.expLen ∨ (t.expLen = s.expLen ∧ t'.expLen = len))

/-- 10_state.md R13, R14, R15, R16: the commands that write each register. -/
def Obligations.EachRegisterHasItsWriters : Prop :=
  ∀ (i : Instr) (s t : State), exec i s = .next t →
    (t.crc ≠ s.crc → isEncoder i.op = true ∨ i.op ∈ [.crcInit, .crcUpd, .crcFrame, .crcChk, .srst]) ∧
    ((t.reqSlave ≠ s.reqSlave ∨ t.reqFc ≠ s.reqFc ∨ t.reqValid ≠ s.reqValid) →
      isEncoder i.op = true ∨ i.op ∈ [.crcFrame, .srst]) ∧
    (t.crcOk ≠ s.crcOk → i.op ∈ [.crcChk, .pushRx, .clrRx, .srst]) ∧
    (t.expLen ≠ s.expLen → i.op ∈ [.pred, .srst])

/-- 10_state.md R18, R19: the commands that write each buffer. -/
def Obligations.EachBufferHasItsWriters : Prop :=
  ∀ (i : Instr) (s t : State), exec i s = .next t →
    (t.pay ≠ s.pay → i.op ∈ [.pushPay, .clrPay, .srst]) ∧
    (t.tx ≠ s.tx → isEncoder i.op = true ∨ i.op ∈ [.crcFrame, .srst]) ∧
    (t.rx ≠ s.rx → i.op ∈ [.pushRx, .clrRx, .srst]) ∧
    (t.out ≠ s.out → i.op ∈ [.decBits, .decRegs, .decWr, .srst])

/-- 20_memory.md R46: the `RD.*` commands change no state but, on failure, the first-error record, and give the same
completion record when repeated. -/
def Obligations.ReadCommandsHaveNoSideEffect : Prop :=
  ∀ (i : Instr) (s t : State) (c : Completion), i.op ∈ [.rdTx, .rdRx, .rdOut, .rdReg, .rdSr] →
    exec i s = .next t → t.trace = s.trace ++ [c] →
    (c.cc = .ok → t = { s with trace := s.trace ++ [c] }) ∧
    t = { s with ecause := t.ecause, ecmd := t.ecmd, trace := s.trace ++ [c] } ∧
    ∃ u, exec i t = .next u ∧ u.trace = t.trace ++ [c]

/-- 10_state.md R27: every step keeps the invariants I-a to I-e. -/
def Obligations.EveryStepKeepsTheInvariants : Prop :=
  ∀ s t : State, Invariants s → step s = .next t → Invariants t

/-- 10_state.md R27, R28: the invariants hold after reset, of every instance that keeps the constraints of 00_scope.md R4,
whatever the host presents and whatever was answered. -/
def Obligations.ResetMeetsTheInvariants : Prop :=
  Invariants State.reset ∧
  ∀ (cfg : Config) (port : List HostInput) (trace : List Completion), cfg.wf →
    Invariants { State.reset with cfg := cfg, port := port, trace := trace }

/-- 00_scope.md R9: no step stops, and what the host presents is taken in order: once the first inputs have been executed, what
was presented after them is what is left, and exactly one record has been added for each command word among them; with `rest`
empty nothing is presented any more. That the inputs and the records stand in two lists which a reset assertion keeps is the
model's choice (DESIGN CHOICE, log 1 and log 2). -/
def Obligations.EveryRunAnswersEveryCommandAndEndsIdle : Prop :=
  ∀ (s : State) (inputs rest : List HostInput), s.port = inputs ++ rest →
    ∃ t records, Host.Core.run Sys2Proof.core inputs.length s = .next t ∧ t.port = rest ∧
      t.trace = s.trace ++ records ∧ records.length = commandCount inputs ∧ t.cfg = s.cfg

/-- 70_reset_and_hazards.md R228 with 41_frame_encode.md R106, 43_length_predictor.md R150 and 42_frame_decode.md R135: a
ReadHoldingRegisters transaction whose slave answers `values`, with any byte-count field and any two trailer bytes. The host
reads the frame out of TX, is told the length of that response, and is given the number of registers; the register values are
in OUT. The premises are that the quantity asked for is that of the answer, that the answer fits in RX, and, by the form
of the run, that no command of another transaction is interleaved (R223). `transaction`, the order of the host's commands, is one
of the model's host-side functions outside the step (DESIGN CHOICE, log 11). -/
def Obligations.AReadTransactionDeliversTheSlavesRegisters : Prop :=
  ∀ (s : State) (slave : Byte) (addr : Half) (values : List Half) (count x y : Byte) (rest : List HostInput),
    s.cfg.wf → values.length < 65536 → 2 * values.length + 5 ≤ s.cfg.bufBytes →
    let qty := BitVec.ofNat 16 values.length
    let frame := (framed slave s.cfg.fcRhr (field16 addr ++ field16 qty) s).tx
    let response := readResponse slave s.cfg.fcRhr count (values.flatMap field16) x y
    ∃ t, Host.Core.run Sys2Proof.core (response.length + 12)
        { s with port := presented (transaction (.encRhr slave addr qty) 8 response .decRegs) ++ rest } = .next t ∧
      t.port = rest ∧ t.tx = frame ∧ t.rx = response ∧ t.out = values.flatMap field16 ∧
      t.expLen.toNat = response.length ∧
      t.trace = s.trace ++ [{ cc := .ok, res := 8 }, { cc := .ok, res := 0 }] ++
        frame.map (fun d => { cc := .ok, res := d.setWidth 32 }) ++
        [{ cc := .ok, res := BitVec.ofNat 32 response.length }] ++
        (List.range response.length).map (fun k => { cc := .ok, res := BitVec.ofNat 32 (k + 1) }) ++
        [{ cc := .ok, res := BitVec.ofNat 32 values.length }]

/-! ## The host's side -/

/-- 70_reset_and_hazards.md R230: the wait strictly decreases as the baud rate increases in (0, 19200], and is the fixed one for
0 and above 19200. The spec leaves open how the two divisions round and what kind of number the multiplier is: exact division
and a rational multiplier are the model's choices (DESIGN CHOICE, log 11). -/
def Obligations.HostWaitDecreasesWithTheBaudRate : Prop :=
  ∀ (h h' : HostConfig) (txLen expLen : Nat), h.multiplier = h'.multiplier →
    (0 < h.multiplier → 0 < h.baud → h.baud < h'.baud → h'.baud ≤ 19200 →
      postWriteWaitUs exactDiv h' txLen expLen < postWriteWaitUs exactDiv h txLen expLen) ∧
    (h.baud = 0 ∨ 19200 < h.baud →
      postWriteWaitUs exactDiv h txLen expLen = (750 * ((txLen : Rat) + (expLen : Rat)) + 1750) * h.multiplier)
end

