-- ==== Sys2Proof/Laws/Decode.lean ====
section
/-!
SUPPORT. The fields of a command word, and the list of opcodes.
-/

namespace Sys2Proof

@[simp] theorem opField_packWord (op s : Byte) (a b : Half) : opField (packWord op s a b) = op := by
  ext i hi
  simp only [opField, packWord, BitVec.getElem_extractLsb', BitVec.getLsbD_append]
  simp only [show ¬ (40 + i < 16) by omega, show ¬ (40 + i - 16 < 16) by omega,
    show ¬ (40 + i - 16 - 16 < 8) by omega, show 40 + i - 16 - 16 - 8 = i by omega, if_false]
  exact BitVec.getLsbD_eq_getElem hi

@[simp] theorem sField_packWord (op s : Byte) (a b : Half) : sField (packWord op s a b) = s := by
  ext i hi
  simp only [sField, packWord, BitVec.getElem_extractLsb', BitVec.getLsbD_append]
  simp only [show ¬ (32 + i < 16) by omega, show ¬ (32 + i - 16 < 16) by omega,
    show 32 + i - 16 - 16 = i by omega, if_false]
  simp [hi]

@[simp] theorem aField_packWord (op s : Byte) (a b : Half) : aField (packWord op s a b) = a := by
  ext i hi
  simp only [aField, packWord, BitVec.getElem_extractLsb', BitVec.getLsbD_append]
  simp only [show ¬ (16 + i < 16) by omega, show 16 + i - 16 = i by omega, if_false]
  simp [hi]

@[simp] theorem bField_packWord (op s : Byte) (a b : Half) : bField (packWord op s a b) = b := by
  ext i hi
  simp only [bField, packWord, BitVec.getElem_extractLsb', BitVec.getLsbD_append]
  simp [hi]

/-- A word is its four fields (30_encoding.md R70). -/
theorem packWord_fields (w : CmdWord) : packWord (opField w) (sField w) (aField w) (bField w) = w := by
  apply BitVec.eq_of_getLsbD_eq
  intro i hi
  simp only [packWord, opField, sField, aField, bField, BitVec.getLsbD_append, BitVec.getLsbD_extractLsb']
  split
  · rename_i h; simp [h]
  · split
    · rename_i h₁ h₂; rw [show 16 + (i - 16) = i by omega]; simp [h₂]
    · split
      · rename_i h₁ h₂ h₃; rw [show 32 + (i - 16 - 16) = i by omega]; simp [h₃]
      · rw [show 40 + (i - 16 - 16 - 8) = i by omega]
        simp [show i - 16 - 16 - 8 < 8 by omega]

/-- The list of rows is complete. -/
theorem Op.mem_all (op : Op) : op ∈ Op.all := by cases op <;> decide

/-- No two rows have one opcode (30_encoding.md R72). -/
theorem Op.code_injective {x y : Op} (h : x.code = y.code) : x = y := by
  have key : ∀ x ∈ Op.all, ∀ y ∈ Op.all, x.code = y.code → x = y := by decide
  exact key x x.mem_all y y.mem_all h

/-- An assigned opcode finds its row. -/
@[simp] theorem opOfByte_code (op : Op) : opOfByte op.code = some op := by cases op <;> decide

/-- A row found has the opcode looked for. -/
theorem code_of_opOfByte {b : Byte} {op : Op} (h : opOfByte b = some op) : op.code = b := by
  have := List.find?_some h
  simpa using this

/-- An opcode is unassigned when no row has it. -/
theorem opOfByte_eq_none {b : Byte} : opOfByte b = none ↔ ∀ op : Op, op.code ≠ b := by
  unfold opOfByte
  rw [List.find?_eq_none]
  exact ⟨fun h op => by simpa using h op op.mem_all, fun h op _ => by simpa using h op⟩

/-- What the decoder makes of a word with a row's opcode. -/
theorem decode_packWord (op : Op) (s : Byte) (a b : Half) :
    decode (packWord op.code s a b) =
      if reservedClear op s a b then
        if op = .rdSr ∧ 9 < a.toNat then .illegal .statusNumber else .command (assemble op s a b)
      else .illegal .reservedBits := by
  simp [decode]

end Sys2Proof
end

