-- ==== Sys2Proof/Laws/Functions.lean ====
section
/-!
SUPPORT. The functional layer: lengths, the shape of each function on the inputs its rule names, and the byte-order lemmas.
-/

namespace Sys2Proof.Machine

@[simp] theorem be16_length (v : Half) : (be16 v).length = 2 := rfl

@[simp] theorem crcTrailer_length (c : Half) : (crcTrailer c).length = 2 := rfl

@[simp] theorem crcAppend_length (data : List Byte) : (crcAppend data).length = data.length + 2 := by
  simp [crcAppend]

@[simp] theorem adu_length (slave fc : Byte) (payload : List Byte) :
    (adu slave fc payload).length = payload.length + 4 := by
  simp [adu]

@[simp] theorem strip_length (resp : List Byte) (h : 5 ≤ resp.length) : (strip resp).length = resp.length - 5 := by
  simp [strip]; omega

/-- Without that bound, stripping never makes bytes. -/
theorem strip_length_le (resp : List Byte) : (strip resp).length ≤ resp.length := by
  simp [strip]

/-- The high and low byte of a pair read big-endian (20_memory.md R44). -/
@[simp] theorem hiByte_ofBe16 (h l : Byte) : hiByte (ofBe16 h l) = h := by
  ext i hi
  have := BitVec.getLsbD_of_ge l (8 + i) (by omega)
  simp_all [hiByte, ofBe16, show 8 + i < 16 by omega]

@[simp] theorem loByte_ofBe16 (h l : Byte) : loByte (ofBe16 h l) = l := by
  ext i hi
  simp [loByte, ofBe16, hi, show i < 16 by omega]

/-- Reading a `be16` field back (20_memory.md R42, R44). -/
@[simp] theorem ofBe16_bytes (v : Half) : ofBe16 (hiByte v) (loByte v) = v := by
  ext i hi
  simp only [ofBe16, hiByte, loByte, BitVec.getElem_or, BitVec.getElem_shiftLeft, BitVec.getElem_setWidth,
    BitVec.getLsbD_extractLsb']
  by_cases h : i < 8
  · simp [h, hi]
  · simp [h, show i - 8 < 8 by omega, show 8 + (i - 8) = i by omega, hi]

/-- One more byte (40_crc_engine.md R81: "then fold every byte in order"). -/
theorem crc16_fold (data : List Byte) : crc16 data = data.foldl crcStep 0xFFFF := rfl

/-- `hdr_check` on four bytes and more (42_frame_decode.md R130). -/
theorem hdrCheck_long (r0 r1 r2 r3 : Byte) (rest : List Byte) (slave fc : Byte) :
    hdrCheck (r0 :: r1 :: r2 :: r3 :: rest) slave fc =
      if r0 ≠ slave then .frmAddr else if r1 ≠ fc then .frmFc else .ok := rfl

/-- `hdr_check` on fewer than four bytes (42_frame_decode.md R130). -/
theorem hdrCheck_short (resp : List Byte) (slave fc : Byte) (h : resp.length < 4) :
    hdrCheck resp slave fc = .frmShort := by
  match resp, h with
  | [], _ => rfl
  | [_], _ => rfl
  | [_, _], _ => rfl
  | [_, _, _], _ => rfl
  | _ :: _ :: _ :: _ :: _, h => simp at h; omega

/-- `hdr_check` reports one of four outcomes (42_frame_decode.md R130). -/
theorem hdrCheck_cases (resp : List Byte) (slave fc : Byte) :
    hdrCheck resp slave fc = .ok ∨ hdrCheck resp slave fc = .frmShort ∨
    hdrCheck resp slave fc = .frmAddr ∨ hdrCheck resp slave fc = .frmFc := by
  unfold hdrCheck
  split
  · split
    · simp
    · split <;> simp
  · simp

/-- Where the quantity bytes exist (43_length_predictor.md R150). -/
theorem requestQty_of_bytes (r0 r1 r2 r3 h l : Byte) (rest : List Byte) :
    requestQty (r0 :: r1 :: r2 :: r3 :: h :: l :: rest) = some (ofBe16 h l).toNat := rfl

/-- No completion code has the numbers 14 and 15 (60_exceptions.md R191). -/
theorem Code.bits_assigned (c : Code) : c.bits ≠ 14 ∧ c.bits ≠ 15 := by
  cases c <;> decide

/-- Only OK is 0 (60_exceptions.md R190). -/
theorem Code.bits_eq_zero (c : Code) : c.bits = 0 ↔ c = .ok := by
  cases c <;> decide

end Sys2Proof.Machine
end

