-- ==== Sys2Proof/Laws/State.lean ====
section
/-!
SUPPORT. What each named update of State does to each field: one lemma per field per update, all true by unfolding, so that no
later proof unfolds an update.
-/

namespace Sys2Proof.Machine

/-! `deliver` (60_exceptions.md R190). -/

@[simp] theorem State.deliver_crc (s : State) (cc : Code) (res : Res) : (s.deliver cc res).crc = s.crc := rfl
@[simp] theorem State.deliver_reqSlave (s : State) (cc : Code) (res : Res) : (s.deliver cc res).reqSlave = s.reqSlave := rfl
@[simp] theorem State.deliver_reqFc (s : State) (cc : Code) (res : Res) : (s.deliver cc res).reqFc = s.reqFc := rfl
@[simp] theorem State.deliver_reqValid (s : State) (cc : Code) (res : Res) : (s.deliver cc res).reqValid = s.reqValid := rfl
@[simp] theorem State.deliver_crcOk (s : State) (cc : Code) (res : Res) : (s.deliver cc res).crcOk = s.crcOk := rfl
@[simp] theorem State.deliver_expLen (s : State) (cc : Code) (res : Res) : (s.deliver cc res).expLen = s.expLen := rfl
@[simp] theorem State.deliver_ecause (s : State) (cc : Code) (res : Res) : (s.deliver cc res).ecause = s.ecause := rfl
@[simp] theorem State.deliver_ecmd (s : State) (cc : Code) (res : Res) : (s.deliver cc res).ecmd = s.ecmd := rfl
@[simp] theorem State.deliver_pay (s : State) (cc : Code) (res : Res) : (s.deliver cc res).pay = s.pay := rfl
@[simp] theorem State.deliver_tx (s : State) (cc : Code) (res : Res) : (s.deliver cc res).tx = s.tx := rfl
@[simp] theorem State.deliver_rx (s : State) (cc : Code) (res : Res) : (s.deliver cc res).rx = s.rx := rfl
@[simp] theorem State.deliver_out (s : State) (cc : Code) (res : Res) : (s.deliver cc res).out = s.out := rfl
@[simp] theorem State.deliver_cfg (s : State) (cc : Code) (res : Res) : (s.deliver cc res).cfg = s.cfg := rfl
@[simp] theorem State.deliver_port (s : State) (cc : Code) (res : Res) : (s.deliver cc res).port = s.port := rfl
@[simp] theorem State.deliver_trace (s : State) (cc : Code) (res : Res) : (s.deliver cc res).trace = s.trace ++ [{ cc := cc, res := res }] := rfl

/-! `clearRequest` (10_state.md R14). -/

@[simp] theorem State.clearRequest_crc (s : State) : (s.clearRequest).crc = s.crc := rfl
@[simp] theorem State.clearRequest_reqSlave (s : State) : (s.clearRequest).reqSlave = 0 := rfl
@[simp] theorem State.clearRequest_reqFc (s : State) : (s.clearRequest).reqFc = 0 := rfl
@[simp] theorem State.clearRequest_reqValid (s : State) : (s.clearRequest).reqValid = false := rfl
@[simp] theorem State.clearRequest_crcOk (s : State) : (s.clearRequest).crcOk = s.crcOk := rfl
@[simp] theorem State.clearRequest_expLen (s : State) : (s.clearRequest).expLen = s.expLen := rfl
@[simp] theorem State.clearRequest_ecause (s : State) : (s.clearRequest).ecause = s.ecause := rfl
@[simp] theorem State.clearRequest_ecmd (s : State) : (s.clearRequest).ecmd = s.ecmd := rfl
@[simp] theorem State.clearRequest_pay (s : State) : (s.clearRequest).pay = s.pay := rfl
@[simp] theorem State.clearRequest_tx (s : State) : (s.clearRequest).tx = s.tx := rfl
@[simp] theorem State.clearRequest_rx (s : State) : (s.clearRequest).rx = s.rx := rfl
@[simp] theorem State.clearRequest_out (s : State) : (s.clearRequest).out = s.out := rfl
@[simp] theorem State.clearRequest_cfg (s : State) : (s.clearRequest).cfg = s.cfg := rfl
@[simp] theorem State.clearRequest_port (s : State) : (s.clearRequest).port = s.port := rfl
@[simp] theorem State.clearRequest_trace (s : State) : (s.clearRequest).trace = s.trace := rfl

/-! `latchRequest` (10_state.md R14). -/

@[simp] theorem State.latchRequest_crc (s : State) (slave fc : Byte) : (s.latchRequest slave fc).crc = s.crc := rfl
@[simp] theorem State.latchRequest_reqSlave (s : State) (slave fc : Byte) : (s.latchRequest slave fc).reqSlave = slave := rfl
@[simp] theorem State.latchRequest_reqFc (s : State) (slave fc : Byte) : (s.latchRequest slave fc).reqFc = fc := rfl
@[simp] theorem State.latchRequest_reqValid (s : State) (slave fc : Byte) : (s.latchRequest slave fc).reqValid = true := rfl
@[simp] theorem State.latchRequest_crcOk (s : State) (slave fc : Byte) : (s.latchRequest slave fc).crcOk = s.crcOk := rfl
@[simp] theorem State.latchRequest_expLen (s : State) (slave fc : Byte) : (s.latchRequest slave fc).expLen = s.expLen := rfl
@[simp] theorem State.latchRequest_ecause (s : State) (slave fc : Byte) : (s.latchRequest slave fc).ecause = s.ecause := rfl
@[simp] theorem State.latchRequest_ecmd (s : State) (slave fc : Byte) : (s.latchRequest slave fc).ecmd = s.ecmd := rfl
@[simp] theorem State.latchRequest_pay (s : State) (slave fc : Byte) : (s.latchRequest slave fc).pay = s.pay := rfl
@[simp] theorem State.latchRequest_tx (s : State) (slave fc : Byte) : (s.latchRequest slave fc).tx = s.tx := rfl
@[simp] theorem State.latchRequest_rx (s : State) (slave fc : Byte) : (s.latchRequest slave fc).rx = s.rx := rfl
@[simp] theorem State.latchRequest_out (s : State) (slave fc : Byte) : (s.latchRequest slave fc).out = s.out := rfl
@[simp] theorem State.latchRequest_cfg (s : State) (slave fc : Byte) : (s.latchRequest slave fc).cfg = s.cfg := rfl
@[simp] theorem State.latchRequest_port (s : State) (slave fc : Byte) : (s.latchRequest slave fc).port = s.port := rfl
@[simp] theorem State.latchRequest_trace (s : State) (slave fc : Byte) : (s.latchRequest slave fc).trace = s.trace := rfl

/-! `toReset` (10_state.md R28). -/

@[simp] theorem State.toReset_crc (s : State) : (s.toReset).crc = 0xFFFF := rfl
@[simp] theorem State.toReset_reqSlave (s : State) : (s.toReset).reqSlave = 0 := rfl
@[simp] theorem State.toReset_reqFc (s : State) : (s.toReset).reqFc = 0 := rfl
@[simp] theorem State.toReset_reqValid (s : State) : (s.toReset).reqValid = false := rfl
@[simp] theorem State.toReset_crcOk (s : State) : (s.toReset).crcOk = false := rfl
@[simp] theorem State.toReset_expLen (s : State) : (s.toReset).expLen = 0 := rfl
@[simp] theorem State.toReset_ecause (s : State) : (s.toReset).ecause = 0 := rfl
@[simp] theorem State.toReset_ecmd (s : State) : (s.toReset).ecmd = 0 := rfl
@[simp] theorem State.toReset_pay (s : State) : (s.toReset).pay = [] := rfl
@[simp] theorem State.toReset_tx (s : State) : (s.toReset).tx = [] := rfl
@[simp] theorem State.toReset_rx (s : State) : (s.toReset).rx = [] := rfl
@[simp] theorem State.toReset_out (s : State) : (s.toReset).out = [] := rfl
@[simp] theorem State.toReset_cfg (s : State) : (s.toReset).cfg = s.cfg := rfl
@[simp] theorem State.toReset_port (s : State) : (s.toReset).port = s.port := rfl
@[simp] theorem State.toReset_trace (s : State) : (s.toReset).trace = s.trace := rfl

/-! `present` (00_scope.md R5). -/

@[simp] theorem State.present_crc (s : State) (w : CmdWord) : (s.present w).crc = s.crc := rfl
@[simp] theorem State.present_reqSlave (s : State) (w : CmdWord) : (s.present w).reqSlave = s.reqSlave := rfl
@[simp] theorem State.present_reqFc (s : State) (w : CmdWord) : (s.present w).reqFc = s.reqFc := rfl
@[simp] theorem State.present_reqValid (s : State) (w : CmdWord) : (s.present w).reqValid = s.reqValid := rfl
@[simp] theorem State.present_crcOk (s : State) (w : CmdWord) : (s.present w).crcOk = s.crcOk := rfl
@[simp] theorem State.present_expLen (s : State) (w : CmdWord) : (s.present w).expLen = s.expLen := rfl
@[simp] theorem State.present_ecause (s : State) (w : CmdWord) : (s.present w).ecause = s.ecause := rfl
@[simp] theorem State.present_ecmd (s : State) (w : CmdWord) : (s.present w).ecmd = s.ecmd := rfl
@[simp] theorem State.present_pay (s : State) (w : CmdWord) : (s.present w).pay = s.pay := rfl
@[simp] theorem State.present_tx (s : State) (w : CmdWord) : (s.present w).tx = s.tx := rfl
@[simp] theorem State.present_rx (s : State) (w : CmdWord) : (s.present w).rx = s.rx := rfl
@[simp] theorem State.present_out (s : State) (w : CmdWord) : (s.present w).out = s.out := rfl
@[simp] theorem State.present_cfg (s : State) (w : CmdWord) : (s.present w).cfg = s.cfg := rfl
@[simp] theorem State.present_port (s : State) (w : CmdWord) : (s.present w).port = .command w :: s.port := rfl
@[simp] theorem State.present_trace (s : State) (w : CmdWord) : (s.present w).trace = s.trace := rfl

/-! `recordError` (60_exceptions.md R192). -/

@[simp] theorem State.recordError_crc (s : State) (code : Code) (opcode : Byte) :
    (s.recordError code opcode).crc = s.crc := by
  unfold State.recordError; split <;> rfl
@[simp] theorem State.recordError_reqSlave (s : State) (code : Code) (opcode : Byte) :
    (s.recordError code opcode).reqSlave = s.reqSlave := by
  unfold State.recordError; split <;> rfl
@[simp] theorem State.recordError_reqFc (s : State) (code : Code) (opcode : Byte) :
    (s.recordError code opcode).reqFc = s.reqFc := by
  unfold State.recordError; split <;> rfl
@[simp] theorem State.recordError_reqValid (s : State) (code : Code) (opcode : Byte) :
    (s.recordError code opcode).reqValid = s.reqValid := by
  unfold State.recordError; split <;> rfl
@[simp] theorem State.recordError_crcOk (s : State) (code : Code) (opcode : Byte) :
    (s.recordError code opcode).crcOk = s.crcOk := by
  unfold State.recordError; split <;> rfl
@[simp] theorem State.recordError_expLen (s : State) (code : Code) (opcode : Byte) :
    (s.recordError code opcode).expLen = s.expLen := by
  unfold State.recordError; split <;> rfl
@[simp] theorem State.recordError_ecause (s : State) (code : Code) (opcode : Byte) :
    (s.recordError code opcode).ecause = if s.ecause = 0 then code.bits else s.ecause := by
  unfold State.recordError; split <;> rfl
@[simp] theorem State.recordError_ecmd (s : State) (code : Code) (opcode : Byte) :
    (s.recordError code opcode).ecmd = if s.ecause = 0 then opcode else s.ecmd := by
  unfold State.recordError; split <;> rfl
@[simp] theorem State.recordError_pay (s : State) (code : Code) (opcode : Byte) :
    (s.recordError code opcode).pay = s.pay := by
  unfold State.recordError; split <;> rfl
@[simp] theorem State.recordError_tx (s : State) (code : Code) (opcode : Byte) :
    (s.recordError code opcode).tx = s.tx := by
  unfold State.recordError; split <;> rfl
@[simp] theorem State.recordError_rx (s : State) (code : Code) (opcode : Byte) :
    (s.recordError code opcode).rx = s.rx := by
  unfold State.recordError; split <;> rfl
@[simp] theorem State.recordError_out (s : State) (code : Code) (opcode : Byte) :
    (s.recordError code opcode).out = s.out := by
  unfold State.recordError; split <;> rfl
@[simp] theorem State.recordError_cfg (s : State) (code : Code) (opcode : Byte) :
    (s.recordError code opcode).cfg = s.cfg := by
  unfold State.recordError; split <;> rfl
@[simp] theorem State.recordError_port (s : State) (code : Code) (opcode : Byte) :
    (s.recordError code opcode).port = s.port := by
  unfold State.recordError; split <;> rfl
@[simp] theorem State.recordError_trace (s : State) (code : Code) (opcode : Byte) :
    (s.recordError code opcode).trace = s.trace := by
  unfold State.recordError; split <;> rfl

/-! `recordError` and an update of another field (60_exceptions.md R192: the record depends on ECAUSE alone). -/

theorem State.recordError_with_crc (s : State) (code : Code) (opcode : Byte) (v : Half) :
    { s with crc := v }.recordError code opcode = { s.recordError code opcode with crc := v } := by
  unfold State.recordError; dsimp only; split <;> rfl
theorem State.recordError_with_reqSlave (s : State) (code : Code) (opcode : Byte) (v : Byte) :
    { s with reqSlave := v }.recordError code opcode = { s.recordError code opcode with reqSlave := v } := by
  unfold State.recordError; dsimp only; split <;> rfl
theorem State.recordError_with_reqFc (s : State) (code : Code) (opcode : Byte) (v : Byte) :
    { s with reqFc := v }.recordError code opcode = { s.recordError code opcode with reqFc := v } := by
  unfold State.recordError; dsimp only; split <;> rfl
theorem State.recordError_with_reqValid (s : State) (code : Code) (opcode : Byte) (v : Bool) :
    { s with reqValid := v }.recordError code opcode = { s.recordError code opcode with reqValid := v } := by
  unfold State.recordError; dsimp only; split <;> rfl
theorem State.recordError_with_crcOk (s : State) (code : Code) (opcode : Byte) (v : Bool) :
    { s with crcOk := v }.recordError code opcode = { s.recordError code opcode with crcOk := v } := by
  unfold State.recordError; dsimp only; split <;> rfl
theorem State.recordError_with_expLen (s : State) (code : Code) (opcode : Byte) (v : BitVec 18) :
    { s with expLen := v }.recordError code opcode = { s.recordError code opcode with expLen := v } := by
  unfold State.recordError; dsimp only; split <;> rfl
theorem State.recordError_with_pay (s : State) (code : Code) (opcode : Byte) (v : Buffer) :
    { s with pay := v }.recordError code opcode = { s.recordError code opcode with pay := v } := by
  unfold State.recordError; dsimp only; split <;> rfl
theorem State.recordError_with_tx (s : State) (code : Code) (opcode : Byte) (v : Buffer) :
    { s with tx := v }.recordError code opcode = { s.recordError code opcode with tx := v } := by
  unfold State.recordError; dsimp only; split <;> rfl
theorem State.recordError_with_rx (s : State) (code : Code) (opcode : Byte) (v : Buffer) :
    { s with rx := v }.recordError code opcode = { s.recordError code opcode with rx := v } := by
  unfold State.recordError; dsimp only; split <;> rfl
theorem State.recordError_with_out (s : State) (code : Code) (opcode : Byte) (v : Buffer) :
    { s with out := v }.recordError code opcode = { s.recordError code opcode with out := v } := by
  unfold State.recordError; dsimp only; split <;> rfl
theorem State.recordError_with_cfg (s : State) (code : Code) (opcode : Byte) (v : Config) :
    { s with cfg := v }.recordError code opcode = { s.recordError code opcode with cfg := v } := by
  unfold State.recordError; dsimp only; split <;> rfl
theorem State.recordError_with_port (s : State) (code : Code) (opcode : Byte) (v : List HostInput) :
    { s with port := v }.recordError code opcode = { s.recordError code opcode with port := v } := by
  unfold State.recordError; dsimp only; split <;> rfl
theorem State.recordError_with_trace (s : State) (code : Code) (opcode : Byte) (v : List Completion) :
    { s with trace := v }.recordError code opcode = { s.recordError code opcode with trace := v } := by
  unfold State.recordError; dsimp only; split <;> rfl

/-- The record is written while it is empty. -/
theorem State.recordError_first {s : State} (h : s.ecause = 0) (code : Code) (opcode : Byte) :
    s.recordError code opcode = { s with ecause := code.bits, ecmd := opcode } := if_pos h

/-- The record keeps the first failure. -/
theorem State.recordError_sticky {s : State} (h : s.ecause ≠ 0) (code : Code) (opcode : Byte) :
    s.recordError code opcode = s := if_neg h

/-- Taking the oldest input (00_scope.md R5). -/
theorem State.takeInput_cons (s : State) (x : HostInput) (rest : List HostInput) (h : s.port = x :: rest) :
    s.takeInput = some (x, { s with port := rest }) := by
  unfold State.takeInput; rw [h]

/-- With nothing presented there is nothing to take. -/
theorem State.takeInput_nil (s : State) (h : s.port = []) : s.takeInput = none := by
  unfold State.takeInput; rw [h]

/-- A word just presented is the next one taken, and leaves what was presented before. -/
@[simp] theorem State.takeInput_present (s : State) (w : CmdWord) :
    (s.present w).takeInput = some (.command w, s) := rfl

end Sys2Proof.Machine
end

