-- ==== Sys2Proof/Laws/Ops.lean ====
section
/-!
SUPPORT. For each shared operation, once, everything it can do: the one state it answers, field by field through the lemmas of
Laws/State.lean; and that the operations over the buffers keep their form.
-/

namespace Sys2Proof.Machine

/-- `complete` answers the state with the record delivered, and nothing else changed. -/
@[simp] theorem complete_next (cc : Code) (res : Res) (s : State) : complete cc res s = .next (s.deliver cc res) := rfl

/-- `fail` answers the state with the failure recorded and the record `(code, 0)` delivered. -/
@[simp] theorem fail_next (code : Code) (opcode : Byte) (s : State) :
    fail code opcode s = .next ((s.recordError code opcode).deliver code 0) := rfl

/-- `fail` while no error is recorded. -/
theorem fail_first {s : State} (h : s.ecause = 0) (code : Code) (opcode : Byte) :
    fail code opcode s =
      .next { s with ecause := code.bits, ecmd := opcode, trace := s.trace ++ [{ cc := code, res := 0 }] } := by
  rw [fail_next, State.recordError_first h]; rfl

/-- `fail` while an error is recorded. -/
theorem fail_sticky {s : State} (h : s.ecause ≠ 0) (code : Code) (opcode : Byte) :
    fail code opcode s = .next { s with trace := s.trace ++ [{ cc := code, res := 0 }] } := by
  rw [fail_next, State.recordError_sticky h]; rfl

/-- `emit` answers one state; its other fields are the old ones (41_frame_encode.md R101). -/
theorem emit_next (slave fc : Byte) (payload : List Byte) (s : State) :
    emit slave fc payload s = .next
      { s with
        crc := crc16 ([slave, fc] ++ payload), tx := adu slave fc payload
        reqValid := true, reqSlave := slave, reqFc := fc
        trace := s.trace ++ [{ cc := .ok, res := natRes (payload.length + 4) }] } := by
  simp only [emit, complete_next, adu_length]; rfl

/-- `reject` fails in the state without frame and request (41_frame_encode.md R102). -/
theorem reject_eq (code : Code) (opcode : Byte) (s : State) :
    reject code opcode s = fail code opcode { s with tx := [], reqValid := false, reqSlave := 0, reqFc := 0 } := rfl

/-- `rejectResponse` fails in the state without decoded data (42_frame_decode.md R133). -/
theorem rejectResponse_eq (code : Code) (opcode : Byte) (s : State) :
    rejectResponse code opcode s = fail code opcode { s with out := [] } := rfl

/-- `readByte` inside the content. -/
theorem readByte_of_lt {buf : Buffer} {i : Half} (h : i.toNat < buf.length) (opcode : Byte) (s : State) :
    readByte buf i opcode s = complete .ok (zext32 buf[i.toNat]) s := by
  simp [readByte, List.getElem?_eq_getElem h]

/-- `readByte` outside the content. -/
theorem readByte_of_le {buf : Buffer} {i : Half} (h : buf.length ≤ i.toNat) (opcode : Byte) (s : State) :
    readByte buf i opcode s = fail .idx opcode s := by
  simp [readByte, List.getElem?_eq_none h]

/-- `readByte` either delivers a byte or fails with `E_IDX`. -/
theorem readByte_cases (buf : Buffer) (i : Half) (opcode : Byte) (s : State) :
    (∃ d, buf[i.toNat]? = some d ∧ readByte buf i opcode s = .next (s.deliver .ok (zext32 d))) ∨
    (buf.length ≤ i.toNat ∧ readByte buf i opcode s = fail .idx opcode s) := by
  unfold readByte
  split
  · exact .inl ⟨_, ‹_›, rfl⟩
  · exact .inr ⟨List.getElem?_eq_none_iff.mp ‹_›, rfl⟩

/-- The decoders' checks without a latched request. -/
theorem responseCheck_noRequest {s : State} (h : s.reqValid = false) : s.responseCheck = .noReq := by
  simp [State.responseCheck, h]

/-- The decoders' checks with a latched request. -/
theorem responseCheck_request {s : State} (h : s.reqValid = true) :
    s.responseCheck = hdrCheck s.rx s.reqSlave s.reqFc := by
  simp [State.responseCheck, h]

/-! The form of the buffers (10_state.md R27 I-a). -/

/-- The empty buffer has the form. -/
@[simp] theorem Buffer.wf_nil (capacity : Nat) : Buffer.wf capacity [] := Nat.zero_le _

/-- Appending a byte to a buffer that is not full (44_buffer_and_system.md R161, R162). -/
theorem Buffer.wf_push {capacity : Nat} {b : Buffer} (h : Buffer.wf capacity b) (notFull : b.length ≠ capacity)
    (d : Byte) : Buffer.wf capacity (b ++ [d]) := by
  simp only [Buffer.wf, List.length_append, List.length_singleton] at *; omega

/-- A frame that fits (41_frame_encode.md R101). -/
theorem Buffer.wf_adu {capacity : Nat} {payload : List Byte} (h : payload.length + 4 ≤ capacity) (slave fc : Byte) :
    Buffer.wf capacity (adu slave fc payload) := by
  simpa [Buffer.wf] using h

/-- Data with its trailer that fits (40_crc_engine.md R87). -/
theorem Buffer.wf_crcAppend {capacity : Nat} {data : List Byte} (h : data.length + 2 ≤ capacity) :
    Buffer.wf capacity (crcAppend data) := by
  simpa [Buffer.wf] using h

/-- Stripping a response keeps the form (42_frame_decode.md R131). -/
theorem Buffer.wf_strip {capacity : Nat} {b : Buffer} (h : Buffer.wf capacity b) : Buffer.wf capacity (strip b) :=
  Nat.le_trans (strip_length_le b) h

/-- Delivering a record touches no buffer. -/
@[simp] theorem Memory.wf_deliver (s : State) (cc : Code) (res : Res) : Memory.wf (s.deliver cc res) ↔ Memory.wf s := Iff.rfl

/-- Recording an error touches no buffer. -/
@[simp] theorem Memory.wf_recordError (s : State) (code : Code) (opcode : Byte) :
    Memory.wf (s.recordError code opcode) ↔ Memory.wf s := by
  simp [Memory.wf]

/-- The request latch is no buffer. -/
@[simp] theorem Memory.wf_clearRequest (s : State) : Memory.wf s.clearRequest ↔ Memory.wf s := Iff.rfl

@[simp] theorem Memory.wf_latchRequest (s : State) (slave fc : Byte) :
    Memory.wf (s.latchRequest slave fc) ↔ Memory.wf s := Iff.rfl

/-- Presenting a word touches no buffer. -/
@[simp] theorem Memory.wf_present (s : State) (w : CmdWord) : Memory.wf (s.present w) ↔ Memory.wf s := Iff.rfl

/-- After a reset of any state all buffers are empty. -/
theorem Memory.wf_toReset (s : State) : Memory.wf s.toReset := by
  simp [Memory.wf, Buffer.wf]

/-- Right after reset the buffers have their form. -/
theorem Memory.wf_reset : Memory.wf State.reset := by decide

end Sys2Proof.Machine
end

