-- ==== Sys2Proof/Laws/PerInstr.lean ====
section
/-!
SUPPORT. What holds of every instruction as syntax, one lemma per constructor. Family Encoding: the word of an instruction
carries its row's opcode in `op` (30_encoding.md R70) and matches its row's mask and match value (R72).
-/

namespace Sys2Proof.Laws

/-- The word of `i` has its row's opcode, and is one of the words its row selects (R72). -/
def Encoding.Statement (i : Instr) : Prop :=
  opField (encode i) = i.op.code ∧ encode i &&& i.op.mask = i.op.matchWord

/-- A mask is applied part by part. -/
theorem append_and {m n : Nat} (x x' : BitVec m) (y y' : BitVec n) :
    (x ++ y) &&& (x' ++ y') = (x &&& x') ++ (y &&& y') := by
  apply BitVec.eq_of_getLsbD_eq
  intro i _
  simp only [BitVec.getLsbD_and, BitVec.getLsbD_append]
  split <;> rfl

/-- A mask is applied field by field. -/
theorem packWord_and (o s : Byte) (a b : Half) (o' s' : Byte) (a' b' : Half) :
    packWord o s a b &&& packWord o' s' a' b' = packWord (o &&& o') (s &&& s') (a &&& a') (b &&& b') := by
  have h := append_and (o ++ s ++ a) (o' ++ s' ++ a') b b'
  rw [append_and (o ++ s) (o' ++ s') a a', append_and o o' s s'] at h
  exact h

theorem Encoding.nop : Encoding.Statement .nop := by
  constructor <;> decide

theorem Encoding.crcInit : Encoding.Statement .crcInit := by
  constructor <;> decide

theorem Encoding.crcUpd (d : Byte) : Encoding.Statement (.crcUpd d) := by
  refine ⟨by simp [encode, Instr.op], ?_⟩
  show packWord _ _ _ _ &&& Op.mask .crcUpd = Op.matchWord .crcUpd
  rw [show Op.mask .crcUpd = packWord 0xFF 0x00 0xFFFF 0xFFFF by decide, packWord_and]
  simp [Op.code, Op.matchWord, packWord]

theorem Encoding.crcRd : Encoding.Statement .crcRd := by
  constructor <;> decide

theorem Encoding.crcFrame : Encoding.Statement .crcFrame := by
  constructor <;> decide

theorem Encoding.crcChk : Encoding.Statement .crcChk := by
  constructor <;> decide

theorem Encoding.encRaw (slave fc : Byte) : Encoding.Statement (.encRaw slave fc) := by
  refine ⟨by simp [encode, Instr.op], ?_⟩
  show packWord _ _ _ _ &&& Op.mask .encRaw = Op.matchWord .encRaw
  rw [show Op.mask .encRaw = packWord 0xFF 0x00 0xFF00 0xFFFF by decide, packWord_and]
  rw [show ((0 : Byte) ++ fc : Half) &&& 0xFF00 = 0 by
    rw [show (0xFF00 : Half) = (0xFF : Byte) ++ (0 : Byte) by decide, append_and]; simp]
  simp [Op.code, Op.matchWord, packWord]

theorem Encoding.encRc (slave : Byte) (addr qty : Half) : Encoding.Statement (.encRc slave addr qty) := by
  refine ⟨by simp [encode, Instr.op], ?_⟩
  show packWord _ _ _ _ &&& Op.mask .encRc = Op.matchWord .encRc
  rw [show Op.mask .encRc = packWord 0xFF 0x00 0x0000 0x0000 by decide, packWord_and]
  simp [Op.code, Op.matchWord, packWord]

theorem Encoding.encRdi (slave : Byte) (addr qty : Half) : Encoding.Statement (.encRdi slave addr qty) := by
  refine ⟨by simp [encode, Instr.op], ?_⟩
  show packWord _ _ _ _ &&& Op.mask .encRdi = Op.matchWord .encRdi
  rw [show Op.mask .encRdi = packWord 0xFF 0x00 0x0000 0x0000 by decide, packWord_and]
  simp [Op.code, Op.matchWord, packWord]

theorem Encoding.encRhr (slave : Byte) (addr qty : Half) : Encoding.Statement (.encRhr slave addr qty) := by
  refine ⟨by simp [encode, Instr.op], ?_⟩
  show packWord _ _ _ _ &&& Op.mask .encRhr = Op.matchWord .encRhr
  rw [show Op.mask .encRhr = packWord 0xFF 0x00 0x0000 0x0000 by decide, packWord_and]
  simp [Op.code, Op.matchWord, packWord]

theorem Encoding.encRir (slave : Byte) (addr qty : Half) : Encoding.Statement (.encRir slave addr qty) := by
  refine ⟨by simp [encode, Instr.op], ?_⟩
  show packWord _ _ _ _ &&& Op.mask .encRir = Op.matchWord .encRir
  rw [show Op.mask .encRir = packWord 0xFF 0x00 0x0000 0x0000 by decide, packWord_and]
  simp [Op.code, Op.matchWord, packWord]

theorem Encoding.encWsc (slave : Byte) (coil : Half) (on : Bool) : Encoding.Statement (.encWsc slave coil on) := by
  refine ⟨by simp [encode, Instr.op], ?_⟩
  show packWord _ _ _ _ &&& Op.mask .encWsc = Op.matchWord .encWsc
  rw [show Op.mask .encWsc = packWord 0xFF 0x00 0x0000 0xFFFE by decide, packWord_and]
  cases on <;> simp [Op.code, Op.matchWord, packWord]

theorem Encoding.encWsr (slave : Byte) (reg value : Half) : Encoding.Statement (.encWsr slave reg value) := by
  refine ⟨by simp [encode, Instr.op], ?_⟩
  show packWord _ _ _ _ &&& Op.mask .encWsr = Op.matchWord .encWsr
  rw [show Op.mask .encWsr = packWord 0xFF 0x00 0x0000 0x0000 by decide, packWord_and]
  simp [Op.code, Op.matchWord, packWord]

theorem Encoding.encWmr (slave : Byte) (addr qty : Half) : Encoding.Statement (.encWmr slave addr qty) := by
  refine ⟨by simp [encode, Instr.op], ?_⟩
  show packWord _ _ _ _ &&& Op.mask .encWmr = Op.matchWord .encWmr
  rw [show Op.mask .encWmr = packWord 0xFF 0x00 0x0000 0x0000 by decide, packWord_and]
  simp [Op.code, Op.matchWord, packWord]

theorem Encoding.decBits : Encoding.Statement .decBits := by
  constructor <;> decide

theorem Encoding.decRegs : Encoding.Statement .decRegs := by
  constructor <;> decide

theorem Encoding.decWr : Encoding.Statement .decWr := by
  constructor <;> decide

theorem Encoding.pred : Encoding.Statement .pred := by
  constructor <;> decide

theorem Encoding.pushPay (d : Byte) : Encoding.Statement (.pushPay d) := by
  refine ⟨by simp [encode, Instr.op], ?_⟩
  show packWord _ _ _ _ &&& Op.mask .pushPay = Op.matchWord .pushPay
  rw [show Op.mask .pushPay = packWord 0xFF 0x00 0xFFFF 0xFFFF by decide, packWord_and]
  simp [Op.code, Op.matchWord, packWord]

theorem Encoding.pushRx (d : Byte) : Encoding.Statement (.pushRx d) := by
  refine ⟨by simp [encode, Instr.op], ?_⟩
  show packWord _ _ _ _ &&& Op.mask .pushRx = Op.matchWord .pushRx
  rw [show Op.mask .pushRx = packWord 0xFF 0x00 0xFFFF 0xFFFF by decide, packWord_and]
  simp [Op.code, Op.matchWord, packWord]

theorem Encoding.clrPay : Encoding.Statement .clrPay := by
  constructor <;> decide

theorem Encoding.clrRx : Encoding.Statement .clrRx := by
  constructor <;> decide

theorem Encoding.rdTx (i : Half) : Encoding.Statement (.rdTx i) := by
  refine ⟨by simp [encode, Instr.op], ?_⟩
  show packWord _ _ _ _ &&& Op.mask .rdTx = Op.matchWord .rdTx
  rw [show Op.mask .rdTx = packWord 0xFF 0xFF 0x0000 0xFFFF by decide, packWord_and]
  simp [Op.code, Op.matchWord, packWord]

theorem Encoding.rdRx (i : Half) : Encoding.Statement (.rdRx i) := by
  refine ⟨by simp [encode, Instr.op], ?_⟩
  show packWord _ _ _ _ &&& Op.mask .rdRx = Op.matchWord .rdRx
  rw [show Op.mask .rdRx = packWord 0xFF 0xFF 0x0000 0xFFFF by decide, packWord_and]
  simp [Op.code, Op.matchWord, packWord]

theorem Encoding.rdOut (i : Half) : Encoding.Statement (.rdOut i) := by
  refine ⟨by simp [encode, Instr.op], ?_⟩
  show packWord _ _ _ _ &&& Op.mask .rdOut = Op.matchWord .rdOut
  rw [show Op.mask .rdOut = packWord 0xFF 0xFF 0x0000 0xFFFF by decide, packWord_and]
  simp [Op.code, Op.matchWord, packWord]

theorem Encoding.rdReg (i : Half) : Encoding.Statement (.rdReg i) := by
  refine ⟨by simp [encode, Instr.op], ?_⟩
  show packWord _ _ _ _ &&& Op.mask .rdReg = Op.matchWord .rdReg
  rw [show Op.mask .rdReg = packWord 0xFF 0xFF 0x0000 0xFFFF by decide, packWord_and]
  simp [Op.code, Op.matchWord, packWord]

theorem Encoding.rdSr (n : Half) : Encoding.Statement (.rdSr n) := by
  refine ⟨by simp [encode, Instr.op], ?_⟩
  show packWord _ _ _ _ &&& Op.mask .rdSr = Op.matchWord .rdSr
  rw [show Op.mask .rdSr = packWord 0xFF 0xFF 0x0000 0xFFFF by decide, packWord_and]
  simp [Op.code, Op.matchWord, packWord]

theorem Encoding.clrErr : Encoding.Statement .clrErr := by
  constructor <;> decide

theorem Encoding.srst : Encoding.Statement .srst := by
  constructor <;> decide

end Sys2Proof.Laws
end

