-- ==== Sys2Proof/Laws/Step.lean ====
section
/-!
SUPPORT. Running the machine: how `Host.Core.run` continues after a step, and what `step` does on each kind of input that is
no command (70_reset_and_hazards.md R220; the commands are the statements' subject).
-/

namespace Sys2Proof.Machine

/-- A run of one step and more goes on from the step's next state. -/
theorem run_succ {M : Host.Core} {s t : M.State} (h : M.step s = .next t) (k : Nat) : M.run (k + 1) s = M.run k t := by
  rw [Host.Core.run, h]

/-- A run of no step ends where it begins. -/
theorem run_zero (M : Host.Core) (s : M.State) : M.run 0 s = .next s := rfl

/-- Two runs in a row. -/
theorem run_add {M : Host.Core} (j k : Nat) {s t : M.State} (h : M.run j s = .next t) : M.run (j + k) s = M.run k t := by
  induction j generalizing s with
  | zero => rw [run_zero] at h; cases h; simp
  | succ j ih =>
    rw [Host.Core.run] at h
    split at h
    · rename_i u hu
      rw [show j + 1 + k = (j + k) + 1 by omega, run_succ hu]
      exact ih h
    · cases h
    · cases h

/-- A reset assertion (R220). -/
theorem step_reset {s : State} {words : List CmdWord} {rest : List HostInput} (h : s.port = .reset words :: rest) :
    step s = .next { s with port := rest }.toReset := by
  simp only [step, State.takeInput_cons _ _ _ h]; rfl

end Sys2Proof.Machine
end

