-- ==== Sys2Proof/Tests/Slice0.lean ====
section
/-!
SUPPORT. Tests of single decodings and single commands, the expected results from 95_test_vectors.md (its vector names in the
comments) or from the printed tables, and one witness for the hypotheses of each statement, at the values where clauses meet.
-/

namespace Sys2Proof.Tests

set_option Elab.async false

open Sys2Proof Sys2Proof.Machine

/-! ## Helpers -/

/-- The next state, if the outcome is one. -/
def landed (r : Result) : Option State :=
  match r with
  | .next t => some t
  | .fault _ => none
  | .refused _ => none

/-- The last completion record of the next state, as numbers. -/
def answer (r : Result) : Option (Nat × Nat) :=
  match r with
  | .next t => t.trace.getLast?.map (fun c => (c.cc.bits.toNat, c.res.toNat))
  | .fault _ => none
  | .refused _ => none

/-- One field of the next state. -/
def field {α : Type} (f : State → α) (r : Result) : Option α :=
  (landed r).map f

/-- The reset state with some content in the buffers. -/
def holding (pay tx rx out : List Byte) : State :=
  { State.reset with pay := pay, tx := tx, rx := rx, out := out }

/-- The reset state with a request latched and RX received. -/
def awaiting (slave fc : Byte) (rx : List Byte) : State :=
  { State.reset with reqSlave := slave, reqFc := fc, reqValid := true, rx := rx }

/-! ## Well-formedness -/

theorem test_wellFormed_refuses_status_number_10 : (Instr.rdSr 10).WellFormed = false := by decide
theorem test_wellFormed_accepts_status_number_9 : (Instr.rdSr 9).WellFormed = true := by decide

/-! ## Words written out from 30_encoding.md R72 and 95_test_vectors.md -/

theorem test_decode_crc_family :
    decode 0x010000000000 = .command .crcInit ∧ decode 0x028F00000000 = .command (.crcUpd 0x8F) ∧
    decode 0x030000000000 = .command .crcRd ∧ decode 0x040000000000 = .command .crcFrame ∧
    decode 0x050000000000 = .command .crcChk := by decide

theorem test_decode_encoder_family :
    decode 0x1001002B0000 = .command (.encRaw 1 0x2B) ∧ decode 0x111100130014 = .command (.encRc 17 19 20) ∧
    decode 0x121100C40016 = .command (.encRdi 17 0xC4 22) ∧ decode 0x130D00000010 = .command (.encRhr 13 0 16) ∧
    decode 0x141100080001 = .command (.encRir 17 8 1) ∧ decode 0x151100AC0001 = .command (.encWsc 17 0xAC true) ∧
    decode 0x151100AC0000 = .command (.encWsc 17 0xAC false) ∧ decode 0x161100010003 = .command (.encWsr 17 1 3) ∧
    decode 0x17F71234007B = .command (.encWmr 0xF7 0x1234 123) := by decide

theorem test_decode_decoder_and_predictor_families :
    decode 0x200000000000 = .command .decBits ∧ decode 0x210000000000 = .command .decRegs ∧
    decode 0x220000000000 = .command .decWr ∧ decode 0x300000000000 = .command .pred := by decide

theorem test_decode_buffer_family :
    decode 0x400A00000000 = .command (.pushPay 0x0A) ∧ decode 0x41CD00000000 = .command (.pushRx 0xCD) ∧
    decode 0x420000000000 = .command .clrPay ∧ decode 0x430000000000 = .command .clrRx ∧
    decode 0x480000060000 = .command (.rdTx 6) ∧ decode 0x490000020000 = .command (.rdRx 2) ∧
    decode 0x4A0000030000 = .command (.rdOut 3) ∧ decode 0x4B0000010000 = .command (.rdReg 1) := by decide

theorem test_decode_system_family :
    decode 0x000000000000 = .command .nop ∧ decode 0x500000080000 = .command (.rdSr 8) ∧
    decode 0x510000000000 = .command .clrErr ∧ decode 0x5F0000000000 = .command .srst := by decide

/-- V-ILL-1 to V-ILL-3. -/
theorem test_decode_unassigned_opcodes :
    decode 0x060000000000 = .illegal .unassignedOpcode ∧ decode 0xFF0000000000 = .illegal .unassignedOpcode ∧
    decode 0x180000000000 = .illegal .unassignedOpcode := by decide

/-- V-ILL-4 to V-ILL-11, V-ILL-14, V-ILL-15. -/
theorem test_decode_reserved_bits :
    ([0x010000000001, 0x000100000000, 0x150D00000002, 0x151100ACFF00, 0x100501070000, 0x100500070001, 0x480100000000,
      0x4B0000010001, 0x020100010000, 0x410D00000001] : List CmdWord).all
      (fun w => decode w = .illegal .reservedBits) = true := by decide

/-- V-ILL-12, V-ILL-13. -/
theorem test_decode_status_numbers :
    decode 0x5000000A0000 = .illegal .statusNumber ∧ decode 0x5000FFFF0000 = .illegal .statusNumber := by decide

theorem test_encode_words_of_the_vectors :
    encode (.encRaw 5 7) = 0x100500070000 ∧ encode (.encRc 1 0x13 0x25) = 0x110100130025 ∧
    encode (.encWsc 17 0xAC true) = 0x151100AC0001 ∧ encode (.pushRx 0xAB) = 0x41AB00000000 ∧
    encode (.rdReg 2) = 0x4B0000020000 := by decide

theorem test_decodeTableWord :
    decodeTableWord 48 0x130D00000010 = some (.encRhr 13 0 16) ∧ decodeTableWord 48 0x060000000000 = none := by decide

theorem test_withFetchWord_is_executed_next :
    field (·.crc) (step (State.reset.withFetchWord 48 0x020100000000)) = some 0x807E := by decide +kernel

/-- The syntax of 30_encoding.md R74 for the word of V-ENC-1. -/
theorem test_assembly_line : assemblyLine (.encRc 17 19 20) = "ENC.RC 17, 19, 20" := by decide +kernel

/-! ## CRC engine -/

/-- V-STEP-3, 5, 6, 7, 8. -/
theorem test_crcStep :
    crcStep 0x0001 0x00 = 0xC0C1 ∧ crcStep 0xFFFF 0x01 = 0x807E ∧ crcStep 0xFFFF 0x00 = 0x40BF ∧
    crcStep 0x807E 0x03 = 0x2140 ∧ crcStep 0x8419 0x02 = 0x0BC4 := by decide +kernel

/-- V-CRC-5, 6, 9, 11. -/
theorem test_crc16 :
    crc16 [0x80] = 0xE0BE ∧ crc16 [0x31] = 0x947E ∧
    crc16 [0x31, 0x32, 0x33, 0x34, 0x35, 0x36, 0x37, 0x38, 0x39] = 0x4B37 ∧ crc16 [0xFF, 0xFF] = 0x0000 := by
  decide +kernel

theorem test_crcInit : field (·.crc) (exec .crcInit { State.reset with crc := 0 }) = some 0xFFFF := by decide

/-- V-CRCC-2. -/
theorem test_crcUpd_from_reset :
    answer (exec (.crcUpd 0x01) State.reset) = some (0, 0x807E) ∧
    field (·.crc) (exec (.crcUpd 0x01) State.reset) = some 0x807E := by decide +kernel

/-- V-CRCC-4. -/
theorem test_crcUpd_continues :
    answer (exec (.crcUpd 0x00) { State.reset with crc := 0xCA44 }) = some (0, 0x33CA) := by decide +kernel

/-- V-CRCC-1. -/
theorem test_crcRd : answer (exec .crcRd State.reset) = some (0, 0xFFFF) := by decide

/-- V-CRCC-3. -/
theorem test_crcFrame_of_nothing :
    answer (exec .crcFrame State.reset) = some (0, 2) ∧
    field (·.tx) (exec .crcFrame State.reset) = some [0xFF, 0xFF] := by decide +kernel

/-- V-CRCC-6: 255 bytes overflow, and CRC is unchanged. -/
theorem test_crcFrame_overflows :
    answer (exec .crcFrame (holding (List.replicate 255 0) [1] [] [])) = some (10, 0) ∧
    field (fun t => (t.tx, t.crc)) (exec .crcFrame (holding (List.replicate 255 0) [1] [] [])) = some ([], 0xFFFF) := by
  decide +kernel

/-- V-CRCC-9. -/
theorem test_crcChk_good :
    answer (exec .crcChk (holding [] [] [0x0D, 0x03, 0x04, 0x12, 0x34, 0xAB, 0xCD, 0xCC, 0x20] [])) = some (0, 1) ∧
    field (fun t => (t.crc, t.crcOk)) (exec .crcChk (holding [] [] [0x0D, 0x03, 0x04, 0x12, 0x34, 0xAB, 0xCD, 0xCC, 0x20] []))
      = some (0x20CC, true) := by decide +kernel

/-- V-CRCC-7, with CRC_OK set before. -/
theorem test_crcChk_too_short :
    field (fun t => (t.crc, t.crcOk)) (exec .crcChk { State.reset with crc := 0x1234, crcOk := true, rx := [0xFF] })
      = some (0x1234, false) := by decide +kernel

/-! ## Request framing -/

/-- V-ENC-17. -/
theorem test_encRaw_minimal : field (·.tx) (exec (.encRaw 5 7) State.reset) = some [0x05, 0x07, 0x43, 0x22] := by
  decide +kernel

/-- V-ENC-21. -/
theorem test_encRaw_overflows :
    answer (exec (.encRaw 1 0x41) (holding (List.replicate 253 0) [1] [] [])) = some (10, 0) ∧
    field (·.tx) (exec (.encRaw 1 0x41) (holding (List.replicate 253 0) [1] [] [])) = some [] := by decide +kernel

/-- V-ENC-1. -/
theorem test_encRc :
    field (·.tx) (exec (.encRc 17 19 20) State.reset) = some [0x11, 0x01, 0x00, 0x13, 0x00, 0x14, 0xCF, 0x50] := by
  decide +kernel

/-- V-ENC-3. -/
theorem test_encRdi :
    field (·.tx) (exec (.encRdi 17 0xC4 22) State.reset) = some [0x11, 0x02, 0x00, 0xC4, 0x00, 0x16, 0xBA, 0xA9] := by
  decide +kernel

/-- V-ENC-4: frame, CRC register, latch. -/
theorem test_encRhr :
    field (fun t => (t.tx, t.crc)) (exec (.encRhr 13 0 16) State.reset)
      = some ([0x0D, 0x03, 0x00, 0x00, 0x00, 0x10, 0x44, 0xCA], 0xCA44) ∧
    field (fun t => (t.reqSlave, t.reqFc, t.reqValid)) (exec (.encRhr 13 0 16) State.reset) = some (13, 0x03, true) := by
  decide +kernel

/-- V-ENC-8: nothing is range-checked. -/
theorem test_encRhr_extreme_operands :
    field (·.tx) (exec (.encRhr 255 0xFFFF 0xFFFF) State.reset) = some [0xFF, 0x03, 0xFF, 0xFF, 0xFF, 0xFF, 0x51, 0x80] := by
  decide +kernel

/-- V-ENC-9. -/
theorem test_encRir :
    field (·.tx) (exec (.encRir 17 8 1) State.reset) = some [0x11, 0x04, 0x00, 0x08, 0x00, 0x01, 0xB2, 0x98] := by
  decide +kernel

/-- V-ENC-10, V-ENC-11. -/
theorem test_encWsc :
    field (·.tx) (exec (.encWsc 17 0xAC true) State.reset) = some [0x11, 0x05, 0x00, 0xAC, 0xFF, 0x00, 0x4E, 0x8B] ∧
    field (·.tx) (exec (.encWsc 17 0xAC false) State.reset) = some [0x11, 0x05, 0x00, 0xAC, 0x00, 0x00, 0x0F, 0x7B] := by
  decide +kernel

/-- V-ENC-12. -/
theorem test_encWsr :
    field (·.tx) (exec (.encWsr 17 1 3) State.reset) = some [0x11, 0x06, 0x00, 0x01, 0x00, 0x03, 0x9A, 0x9B] := by
  decide +kernel

/-- V-ENC-13. -/
theorem test_encWmr :
    field (·.tx) (exec (.encWmr 17 1 2) (holding [0x00, 0x0A, 0x01, 0x02] [] [] []))
      = some [0x11, 0x10, 0x00, 0x01, 0x00, 0x02, 0x04, 0x00, 0x0A, 0x01, 0x02, 0xC6, 0xF0] := by decide +kernel

/-- V-ENC-36, V-ENC-38, V-ENC-32, V-ENC-34: which validation fails first. -/
theorem test_encWmr_validations :
    answer (exec (.encWmr 248 1 0) (holding [0x00, 0x0A, 0x01, 0x02] [] [] [])) = some (2, 0) ∧
    answer (exec (.encWmr 17 1 0) State.reset) = some (3, 0) ∧
    answer (exec (.encWmr 17 1 124) (holding (List.replicate 248 0) [] [] [])) = some (3, 0) ∧
    answer (exec (.encWmr 17 1 1) (holding [0x00, 0x0A, 0x01, 0x02] [] [] [])) = some (4, 0) := by decide +kernel

/-! ## Response decode -/

/-- V-DEC-2. -/
theorem test_decBits :
    answer (exec .decBits (awaiting 17 1 [0x11, 0x01, 0x03, 0xCD, 0x6B, 0x05, 0x40, 0x12])) = some (0, 3) ∧
    field (·.out) (exec .decBits (awaiting 17 1 [0x11, 0x01, 0x03, 0xCD, 0x6B, 0x05, 0x40, 0x12]))
      = some [0xCD, 0x6B, 0x05] := by decide +kernel

/-- V-DEC-12, V-DEC-13, V-DEC-14, V-DEC-20. -/
theorem test_decBits_failures :
    answer (exec .decBits (awaiting 9 3 [0x08, 0x03, 0x02])) = some (5, 0) ∧
    answer (exec .decBits (awaiting 9 3 [0x08, 0x04, 0x00, 0x00])) = some (6, 0) ∧
    answer (exec .decBits (awaiting 13 3 [0x0D, 0x03, 0xE0, 0xF3])) = some (8, 0) ∧
    answer (exec .decBits State.reset) = some (12, 0) := by decide +kernel

/-- V-DEC-1. -/
theorem test_decRegs :
    answer (exec .decRegs (awaiting 13 3 [0x0D, 0x03, 0x04, 0x12, 0x34, 0xAB, 0xCD, 0xCC, 0x20])) = some (0, 2) ∧
    field (·.out) (exec .decRegs (awaiting 13 3 [0x0D, 0x03, 0x04, 0x12, 0x34, 0xAB, 0xCD, 0xCC, 0x20]))
      = some [0x12, 0x34, 0xAB, 0xCD] := by decide +kernel

/-- V-DEC-16, V-DEC-8, V-DEC-15. -/
theorem test_decRegs_odd_exception_and_empty :
    answer (exec .decRegs (awaiting 13 3 [0x0D, 0x03, 0x03, 0x01, 0x02, 0x03, 0x55, 0xE3])) = some (9, 0) ∧
    answer (exec .decRegs (awaiting 13 3 [0x0D, 0x83, 0x02, 0x00, 0xF2])) = some (7, 0) ∧
    answer (exec .decRegs (awaiting 13 3 [0x0D, 0x03, 0x00, 0xE0, 0xF3])) = some (0, 0) := by decide +kernel

/-- V-DEC-23, and V-DEC-14 for `DEC.WR`. -/
theorem test_decWr :
    answer (exec .decWr (awaiting 17 6 [0x11, 0x06, 0xFF, 0xFF, 0xFF, 0xFF, 0x00, 0x00, 0x00, 0x00, 0x00])) = some (0, 0) ∧
    answer (exec .decWr (awaiting 13 3 [0x0D, 0x03, 0xE0, 0xF3])) = some (0, 0) := by decide +kernel

/-- V-DEC-9, and OUT emptied. -/
theorem test_decWr_exception :
    answer (exec .decWr { awaiting 17 0x10 [0x11, 0x90, 0x02, 0xCC, 0x04] with out := [1] }) = some (7, 0) ∧
    field (·.out) (exec .decWr { awaiting 17 0x10 [0x11, 0x90, 0x02, 0xCC, 0x04] with out := [1] }) = some [] := by
  decide +kernel

/-! ## Length predictor -/

/-- V-PRED-8, V-PRED-16, V-PRED-19, V-PRED-22. -/
theorem test_pred :
    answer (exec .pred (holding [] [0x01, 0x01, 0x00, 0x00, 0xFF, 0xF9, 0, 0] [] [])) = some (0, 8197) ∧
    answer (exec .pred (holding [] [0x01, 0x04, 0x00, 0x00, 0xFF, 0xFF, 0, 0] [] [])) = some (0, 131075) ∧
    answer (exec .pred (holding [] [0x11, 0x10, 0x00, 0x01, 0x00, 0x02, 0x04, 0x00, 0x0A, 0x01, 0x02, 0xC6, 0xF0] [] []))
      = some (0, 8) ∧
    answer (exec .pred (holding [] [0x01, 0x2B, 0x0E, 0x01, 0x00, 0x70, 0x77] [] [])) = some (0, 4) := by decide +kernel

/-- V-PRED-25, V-PRED-26, V-PRED-28. -/
theorem test_pred_short_requests :
    answer (exec .pred (holding [] [0x05, 0x03, 0x42, 0xE1] [] [])) = some (13, 0) ∧
    answer (exec .pred (holding [] [0x05, 0x03, 0x00, 0x00, 0xF0, 0xE8] [] [])) = some (0, 123349) ∧
    answer (exec .pred (holding [] [0xFF, 0xFF] [] [])) = some (13, 0) := by decide +kernel

/-! ## Buffers and system commands -/

/-- V-BUF-13. -/
theorem test_nop : answer (exec .nop { State.reset with crc := 7 }) = some (0, 0) := by decide

/-- V-BUF-1, V-BUF-2, V-BUF-3. -/
theorem test_pushPay :
    field (·.pay) (exec (.pushPay 0x01) State.reset) = some [0x01] ∧
    answer (exec (.pushPay 0xFF) (holding (List.replicate 255 0) [] [] [])) = some (0, 256) ∧
    answer (exec (.pushPay 0x01) (holding (List.replicate 256 0) [] [] [])) = some (10, 0) := by decide +kernel

/-- V-CRCC-11 and V-BUF-4: CRC_OK is cleared by a push that succeeds and by no other. -/
theorem test_pushRx :
    field (fun t => (t.rx, t.crcOk)) (exec (.pushRx 0x01) { State.reset with crcOk := true }) = some ([0x01], false) ∧
    field (·.crcOk) (exec (.pushRx 0x01) { State.reset with rx := List.replicate 256 0, crcOk := true }) = some true := by
  decide +kernel

/-- V-BUF-5. -/
theorem test_clrPay : field (·.pay) (exec .clrPay (holding [1, 2, 3, 4, 5, 6] [] [] [])) = some [] := by decide

/-- V-BUF-6. -/
theorem test_clrRx :
    field (fun t => (t.rx, t.crcOk)) (exec .clrRx { State.reset with rx := [1, 2], crcOk := true }) = some ([], false) := by
  decide

/-- V-BUF-7. -/
theorem test_rdTx :
    answer (exec (.rdTx 7) (holding [] [0x0D, 0x03, 0x00, 0x00, 0x00, 0x10, 0x44, 0xCA] [] [])) = some (0, 0xCA) ∧
    answer (exec (.rdTx 8) (holding [] [0x0D, 0x03, 0x00, 0x00, 0x00, 0x10, 0x44, 0xCA] [] [])) = some (11, 0) := by
  decide +kernel

/-- V-DEC-7. -/
theorem test_rdRx : answer (exec (.rdRx 2) (holding [] [] [0x09, 0x83, 0x02, 0x41, 0x33] [])) = some (0, 0x02) := by
  decide +kernel

/-- V-BUF-9 for `RD.OUT`. -/
theorem test_rdOut : answer (exec (.rdOut 2) (holding [] [] [] [0x12, 0x34, 0xAB])) = some (0, 0xAB) := by decide +kernel

/-- V-BUF-9, V-BUF-10, V-BUF-11. -/
theorem test_rdReg :
    answer (exec (.rdReg 0) (holding [] [] [] [0x12, 0x34, 0xAB])) = some (0, 0x1234) ∧
    answer (exec (.rdReg 1) (holding [] [] [] [0x12, 0x34, 0xAB])) = some (11, 0) ∧
    answer (exec (.rdReg 0x8000) (holding [] [] [] [0x12, 0x34, 0xAB])) = some (11, 0) := by decide +kernel

/-- V-BUF-12. -/
theorem test_rdSr_after_reset :
    (List.range 10).map (fun n => (answer (exec (.rdSr (BitVec.ofNat 16 n)) State.reset)).map (·.2))
      = [0, 0xFFFF, 0, 0, 0, 0, 0, 0, 0xF701, 0x100].map some := by decide +kernel

/-- The end state of program P1: status registers 0, 2, 7. -/
theorem test_rdSr_of_program_P1 :
    (let s := { awaiting 13 3 [] with crcOk := true, expLen := 9, ecause := 11, ecmd := 0x4B }
     [0, 2, 7].map (fun n => (answer (exec (.rdSr n) s)).map (·.2))) = [0x34BB, 0x030D, 9].map some := by decide +kernel

/-- V-BUF-14. -/
theorem test_clrErr :
    field (fun t => (t.ecause, t.ecmd)) (exec .clrErr { State.reset with ecause := 6, ecmd := 0x21 }) = some (0, 0) := by
  decide

/-- V-BUF-15. -/
theorem test_srst :
    field (fun t => { t with trace := [] }) (exec .srst { awaiting 9 3 [1] with crc := 5, expLen := 9 })
      = some State.reset := by decide

/-- The "sticky first error" of 95_test_vectors.md 2.6: `DEC.WR` fails with 12 and the record keeps 11 and 0x48. -/
theorem test_error_record_is_sticky :
    field (fun t => (t.ecause, t.ecmd)) (exec (.rdTx 0) State.reset) = some (11, 0x48) ∧
    field (fun t => (t.ecause, t.ecmd)) (exec .decWr { State.reset with ecause := 11, ecmd := 0x48 })
      = some (11, 0x48) := by decide +kernel

/-- V-ILL-5: an illegal `NOP` is recorded with ECMD = 0x00. -/
theorem test_illegal_word_is_recorded :
    answer (step (State.reset.withFetchWord 48 0x000100000000)) = some (1, 0) ∧
    field (fun t => (t.ecause, t.ecmd)) (step (State.reset.withFetchWord 48 0x000100000000)) = some (1, 0x00) := by
  decide +kernel

/-- S10 at 9600 baud and at 0: (1562.5 × 17 + 3645.83) × 2 = 60416.67 = 181250/3, and 29000 microseconds. -/
theorem test_post_write_wait :
    postWriteWaitUs exactDiv { baud := 9600 } 8 9 = 181250 / 3 ∧ postWriteWaitUs exactDiv { baud := 0 } 8 9 = 29000 := by
  constructor <;> norm_num [postWriteWaitUs, charUs, frameUs, exactDiv]

/-! ## Witnesses: the hypotheses of each statement, clause by clause, are met -/

theorem witness_StepExecutesTheDecodedCommand :
    ∃ (s : State) (w : CmdWord) (rest : List HostInput) (i : Instr),
      s.port = .command w :: rest ∧ decode w = .command i :=
  ⟨{ State.reset with port := [.command 0x020100000000, .reset []] }, 0x020100000000, [.reset []], .crcUpd 1, rfl, by decide⟩

theorem witness_IllegalWords_unassigned :
    ∃ (s : State) (w : CmdWord) (rest : List HostInput),
      s.port = .command w :: rest ∧ decode w = .illegal .unassignedOpcode :=
  ⟨{ State.reset with port := [.command 0x180000000000] }, 0x180000000000, [], rfl, by decide⟩

theorem witness_IllegalWords_reserved_bits :
    ∃ (s : State) (w : CmdWord) (rest : List HostInput),
      s.port = .command w :: rest ∧ decode w = .illegal .reservedBits :=
  ⟨{ State.reset with port := [.command 0x150D00000002] }, 0x150D00000002, [], rfl, by decide⟩

theorem witness_IllegalWords_status_number :
    ∃ (s : State) (w : CmdWord) (rest : List HostInput),
      s.port = .command w :: rest ∧ decode w = .illegal .statusNumber :=
  ⟨{ State.reset with port := [.command 0x5000000A0000] }, 0x5000000A0000, [], rfl, by decide⟩

theorem witness_WordsSelectRowsByMaskAndMatch :
    (0x5000FFFF0000 : CmdWord) &&& Op.mask .rdSr = Op.matchWord .rdSr ∧
    (0x15FFFFFF0001 : CmdWord) &&& Op.mask .encWsc = Op.matchWord .encWsc := by decide

theorem witness_DecodeOfEncodeIsTheInstruction : (Instr.rdSr 9).WellFormed = true := by decide

theorem witness_EncodeOfDecodeIsTheWord : decode 0x17FFFFFFFFFF = .command (.encWmr 0xFF 0xFFFF 0xFFFF) := by decide

theorem witness_ResetAssertionResetsTheBlock :
    ∃ (s : State) (words : List CmdWord) (rest : List HostInput), s.port = .reset words :: rest :=
  ⟨{ State.reset with port := [.reset [0], .command 0] }, [0], [.command 0], rfl⟩

theorem witness_IdleBlockKeepsItsState : State.reset.port = [] := rfl

theorem witness_CrcTellsApartMessages : (0x00 : Byte) ≠ 0x80 := by decide

theorem witness_CrcFrame_fits : (holding (List.replicate 254 0) [] [] []).pay.length + 2 ≤ Config.default.bufBytes := by decide +kernel

theorem witness_CrcFrame_overflows : Config.default.bufBytes < (holding (List.replicate 255 0) [] [] []).pay.length + 2 := by
  decide +kernel

theorem witness_CrcChk_short : (holding [] [] [0xFF] []).rx.length < 2 := by decide

theorem witness_CrcChk_match :
    ∃ (data : List Byte) (x y : Byte), (holding [] [] [0xFF, 0xFF] []).rx = data ++ [x, y] ∧
      x = (crc16 data).extractLsb' 0 8 ∧ y = (crc16 data).extractLsb' 8 8 :=
  ⟨[], 0xFF, 0xFF, rfl, by decide, by decide⟩

theorem witness_CrcChk_mismatch :
    ∃ (data : List Byte) (x y : Byte), (holding [] [] [0xFF, 0xFE] []).rx = data ++ [x, y] ∧
      ¬ (x = (crc16 data).extractLsb' 0 8 ∧ y = (crc16 data).extractLsb' 8 8) :=
  ⟨[], 0xFF, 0xFE, rfl, by decide⟩

theorem witness_StreamedCrc_fits : (List.replicate 254 (0 : Byte)).length + 2 ≤ State.reset.cfg.bufBytes := by decide +kernel

theorem witness_EncRaw_fits : (holding (List.replicate 252 0) [] [] []).pay.length + 4 ≤ State.reset.cfg.bufBytes := by decide +kernel

theorem witness_EncRaw_overflows : State.reset.cfg.bufBytes < (holding (List.replicate 253 0) [] [] []).pay.length + 4 := by
  decide +kernel

theorem witness_WriteSingleCoil_other_value : (2 : Half) ≠ 1 ∧ (2 : Half) ≠ 0 := by decide

/-- One slave address and one quantity on each side of each bound of `ENC.WMR`, and a PAY that fits and one that does not. -/
theorem witness_EncWmr_bounds :
    State.reset.cfg.addrMax.toNat < (248 : Byte).toNat ∧ ¬ State.reset.cfg.addrMax.toNat < (247 : Byte).toNat ∧
    ((0 : Half).toNat < 1 ∨ 123 < (0 : Half).toNat) ∧ ((124 : Half).toNat < 1 ∨ 123 < (124 : Half).toNat) ∧
    ¬ ((1 : Half).toNat < 1 ∨ 123 < (1 : Half).toNat) ∧ ¬ ((123 : Half).toNat < 1 ∨ 123 < (123 : Half).toNat) ∧
    (holding [1] [] [] []).pay.length ≠ 2 * (1 : Half).toNat ∧
    ¬ (holding (List.replicate 246 0) [] [] []).pay.length ≠ 2 * (123 : Half).toNat := by decide +kernel

theorem witness_EncodingTwiceGivesTheSameFrame :
    ∃ (i : Instr) (s s' t t' : State), isEncoder i.op = true ∧ s ≠ s' ∧ s.cfg = s'.cfg ∧ s.pay = s'.pay ∧
      exec i s = .next t ∧ exec i s' = .next t' :=
  ⟨.encRaw 1 0x2B, holding [0x0E] [] [] [], { holding [0x0E] [7] [8] [] with crc := 3, ecause := 2 }, _, _,
    rfl, by decide, rfl, rfl, rfl, rfl⟩

theorem witness_FailedFrameBuilder_encoder :
    ∃ (i : Instr) (s t : State) (c : Completion), isEncoder i.op = true ∧ exec i s = .next t ∧
      t.trace = s.trace ++ [c] ∧ c.cc ≠ .ok :=
  ⟨.encWmr 17 1 124, holding [] [1, 2, 3, 4] [] [], _, ⟨.valQty, 0⟩, rfl, rfl, by decide, by decide⟩

theorem witness_FailedFrameBuilder_crcFrame :
    ∃ c : Completion, (field (·.trace) (exec .crcFrame (holding (List.replicate 255 0) [1, 2, 3, 4] [] []))) = some [c] ∧
      c.cc ≠ .ok :=
  ⟨⟨.ovf, 0⟩, by decide +kernel, by decide⟩

theorem witness_ResponseRefused_noRequest : ResponseRefused (holding [] [] [9, 3, 2, 0] []) .noReq := by
  unfold ResponseRefused; decide

theorem witness_ResponseRefused_short : ResponseRefused (awaiting 9 3 [9, 3, 2]) .frmShort := by
  unfold ResponseRefused; decide

theorem witness_ResponseRefused_address : ResponseRefused (awaiting 9 3 [8, 4, 0, 0]) .frmAddr := by
  unfold ResponseRefused; decide

theorem witness_ResponseRefused_functionCode : ResponseRefused (awaiting 9 3 [9, 4, 0, 0]) .frmFc := by
  unfold ResponseRefused; decide

theorem witness_ResponseAccepted_four_bytes :
    ResponseAccepted (awaiting 13 3 [0x0D, 0x03, 0xE0, 0xF3]) ∧ (awaiting 13 3 [0x0D, 0x03, 0xE0, 0xF3]).rx.length = 4 := by
  unfold ResponseAccepted; decide

theorem witness_ResponseAccepted_five_bytes :
    ResponseAccepted (awaiting 13 3 [0x0D, 0x03, 0x00, 0xE0, 0xF3]) ∧
    ∃ (a b n : Byte) (data : List Byte) (x y : Byte),
      (awaiting 13 3 [0x0D, 0x03, 0x00, 0xE0, 0xF3]).rx = a :: b :: n :: data ++ [x, y] ∧ data.length % 2 = 0 :=
  ⟨by unfold ResponseAccepted; decide, 0x0D, 0x03, 0x00, [], 0xE0, 0xF3, rfl, rfl⟩

theorem witness_ResponseAccepted_odd_data :
    ResponseAccepted (awaiting 13 3 [0x0D, 0x03, 0x01, 0x07, 0xE0, 0xF3]) ∧
    ∃ (a b n : Byte) (data : List Byte) (x y : Byte),
      (awaiting 13 3 [0x0D, 0x03, 0x01, 0x07, 0xE0, 0xF3]).rx = a :: b :: n :: data ++ [x, y] ∧ data.length % 2 = 1 :=
  ⟨by unfold ResponseAccepted; decide, 0x0D, 0x03, 0x01, [0x07], 0xE0, 0xF3, rfl, rfl⟩

theorem witness_ExceptionResponses :
    ∃ (s : State) (code x : Byte) (more : List Byte) (i : Instr) (opcode : Byte), s.reqValid = true ∧
      s.reqFc.getLsbD 7 = false ∧ s.rx = s.reqSlave :: (s.reqFc ||| 0x80) :: code :: x :: more ∧
      (i, opcode) ∈ [(Instr.decBits, (0x20 : Byte)), (.decRegs, 0x21), (.decWr, 0x22)] :=
  ⟨awaiting 9 3 [0x09, 0x83, 0x02, 0x41, 0x33], 0x02, 0x41, [0x33], .decRegs, 0x21, rfl, by decide, by decide, by decide⟩

/-- With the first register number past the values and the last one within them. -/
theorem witness_RegisterValuesOfAResponse :
    ∃ (s : State) (values : List Half) (count x y : Byte) (v : Half), s.reqValid = true ∧
      s.rx = readResponse s.reqSlave s.reqFc count (values.flatMap field16) x y ∧
      values[(1 : Half).toNat]? = some v ∧ values.length ≤ (2 : Half).toNat :=
  ⟨awaiting 13 3 [0x0D, 0x03, 0x04, 0x12, 0x34, 0xAB, 0xCD, 0xCC, 0x20], [0x1234, 0xABCD], 4, 0xCC, 0x20, 0xABCD,
    rfl, by decide, rfl, by decide⟩

theorem witness_Pred_too_short : (holding [] [1, 3, 0] [] []).tx.length < 4 := by decide

theorem witness_Pred_read_too_short :
    (holding [] [1, 3, 0, 0, 0] [] []).tx[1]? = some 3 ∧ 3 ∈ readCodes State.reset.cfg ∧
    (holding [] [1, 3, 0, 0, 0] [] []).tx.length < 6 := by decide

theorem witness_Pred_read :
    4 ≤ (holding [] [1, 3, 0, 0, 0, 2] [] []).tx.length ∧ (holding [] [1, 3, 0, 0, 0, 2] [] []).tx[1]? = some 3 ∧
    (3 ∈ readCodes State.reset.cfg → 6 ≤ (holding [] [1, 3, 0, 0, 0, 2] [] []).tx.length) := by decide

theorem witness_Pred_other_code :
    4 ≤ (holding [] [1, 7, 0, 0] [] []).tx.length ∧ (holding [] [1, 7, 0, 0] [] []).tx[1]? = some 7 ∧
    (7 ∈ readCodes State.reset.cfg → 6 ≤ (holding [] [1, 7, 0, 0] [] []).tx.length) := by decide

theorem witness_PredictionNeverWraps :
    4 ≤ (holding [] [1, 4, 0, 0, 0xFF, 0xFF] [] []).tx.length ∧
    PredictedLength State.reset.cfg (holding [] [1, 4, 0, 0, 0xFF, 0xFF] [] []).tx 131075 :=
  ⟨by decide, 4, rfl, by
    rw [if_neg (by decide), if_pos (by decide)]
    exact ⟨0xFF, 0xFF, rfl, rfl, by decide⟩⟩

theorem witness_PredictedLength_of_bits : Config.default.wf ∧ (List.replicate 3 (0 : Byte)).length = ((20 : Half).toNat + 7) / 8 := by
  decide +kernel

theorem witness_PredictedLength_of_registers : Config.default.wf ∧ (List.replicate 4 (0 : Byte)).length = 2 * (2 : Half).toNat := by
  decide +kernel

theorem witness_PushPay_full_and_not :
    (holding (List.replicate 256 0) [] [] []).pay.length = State.reset.cfg.bufBytes ∧
    (holding (List.replicate 255 0) [] [] []).pay.length ≠ State.reset.cfg.bufBytes := by decide +kernel

theorem witness_PushRx_full_and_not :
    (holding [] [] (List.replicate 256 0) []).rx.length = State.reset.cfg.bufBytes ∧
    (holding [] [] (List.replicate 255 0) []).rx.length ≠ State.reset.cfg.bufBytes := by decide +kernel

theorem witness_ByteReads :
    (holding [] [5, 6] [] []).tx[(1 : Half).toNat]? = some 6 ∧ (holding [] [5, 6] [] []).tx.length ≤ (2 : Half).toNat ∧
    (holding [] [] [5, 6] []).rx[(1 : Half).toNat]? = some 6 ∧ (holding [] [] [5, 6] []).rx.length ≤ (2 : Half).toNat ∧
    (holding [] [] [] [5, 6]).out[(1 : Half).toNat]? = some 6 ∧ (holding [] [] [] [5, 6]).out.length ≤ (2 : Half).toNat := by
  decide

theorem witness_RdReg :
    (holding [] [] [] [1, 2, 3]).out[2 * (0 : Half).toNat]? = some 1 ∧
    (holding [] [] [] [1, 2, 3]).out[2 * (0 : Half).toNat + 1]? = some 2 ∧
    (holding [] [] [] [1, 2, 3]).out.length ≤ 2 * (1 : Half).toNat + 1 := by decide

theorem witness_RdSr : (9 : Half).toNat ≤ 9 ∧ 9 < (10 : Half).toNat := by decide

theorem witness_LoadingReplacesTheBuffer : (List.replicate 256 (0 : Byte)).length ≤ State.reset.cfg.bufBytes := by decide +kernel

theorem witness_FirstErrorRecord_failure_recorded :
    ∃ (s t : State) (w : CmdWord) (rest : List HostInput) (c : Completion), s.port = .command w :: rest ∧
      step s = .next t ∧ t.trace = s.trace ++ [c] ∧ c.cc ≠ .ok ∧ s.ecause = 0 :=
  ⟨{ State.reset with port := [.command 0x480000000000] }, _, 0x480000000000, [], ⟨.idx, 0⟩,
    rfl, rfl, by decide, by decide, rfl⟩

theorem witness_FirstErrorRecord_failure_not_recorded :
    ∃ (s t : State) (w : CmdWord) (rest : List HostInput) (c : Completion), s.port = .command w :: rest ∧
      step s = .next t ∧ t.trace = s.trace ++ [c] ∧ c.cc ≠ .ok ∧ s.ecause ≠ 0 :=
  ⟨{ State.reset with port := [.command 0x220000000000], ecause := 11, ecmd := 0x48 }, _, 0x220000000000, [], ⟨.noReq, 0⟩,
    rfl, rfl, by decide, by decide, by decide⟩

theorem witness_FirstErrorRecord_cleared :
    ∃ (s t : State) (w : CmdWord) (rest : List HostInput) (c : Completion), s.port = .command w :: rest ∧
      step s = .next t ∧ t.trace = s.trace ++ [c] ∧ c.cc = .ok ∧ decode w = .command .clrErr ∧ s.ecause ≠ 0 :=
  ⟨{ State.reset with port := [.command 0x510000000000], ecause := 11, ecmd := 0x48 }, _, 0x510000000000, [], ⟨.ok, 0⟩,
    rfl, rfl, by decide, rfl, by decide, by decide⟩

theorem witness_FirstErrorRecord_kept_by_success :
    ∃ (s t : State) (w : CmdWord) (rest : List HostInput) (c : Completion), s.port = .command w :: rest ∧
      step s = .next t ∧ t.trace = s.trace ++ [c] ∧ c.cc = .ok ∧ decode w = .command .nop ∧ s.ecause ≠ 0 :=
  ⟨{ State.reset with port := [.command 0], ecause := 11, ecmd := 0x48 }, _, 0, [], ⟨.ok, 0⟩,
    rfl, rfl, by decide, rfl, by decide, by decide⟩

theorem witness_CommandsFailOnlyWithTheirOwnCodes :
    ∃ (i : Instr) (s t : State) (c : Completion), i.WellFormed = true ∧ exec i s = .next t ∧
      t.trace = s.trace ++ [c] ∧ c.cc ≠ .ok :=
  ⟨.decBits, awaiting 13 3 [0x0D, 0x03, 0xE0, 0xF3], _, ⟨.frmStrip, 0⟩, rfl, rfl, by decide, by decide⟩

theorem witness_ErrorRecordNeverChangesExecution :
    ∃ (s t t' : State) (w : CmdWord) (rest : List HostInput) (cause : BitVec 4) (cmd : Byte), s.port = .command w :: rest ∧
      decode w ≠ .command (.rdSr 0) ∧ cause ≠ s.ecause ∧ step s = .next t ∧
      step { s with ecause := cause, ecmd := cmd } = .next t' :=
  ⟨{ State.reset with port := [.command 0x500000020000] }, _, _, 0x500000020000, [], 3, 0x17,
    rfl, by decide, by decide, rfl, rfl⟩

theorem witness_CrcRegisterHasThreeReaders :
    ∃ (i : Instr) (s t t' : State) (v : Half), (∀ d, i ≠ .crcUpd d) ∧ i ≠ .crcRd ∧ i ≠ .rdSr 1 ∧ v ≠ s.crc ∧
      exec i s = .next t ∧ exec i { s with crc := v } = .next t' :=
  ⟨.encRhr 13 0 2, State.reset, _, _, 0x1234, by simp, by decide, by decide, by decide, rfl, rfl⟩

theorem witness_CrcOkAndExpLenAreReadByRdSrAlone_decoder :
    ∃ (i : Instr) (s t t' : State) (ok : Bool) (len : BitVec 18), i ≠ .rdSr 0 ∧ i ≠ .rdSr 7 ∧ ok ≠ s.crcOk ∧
      len ≠ s.expLen ∧ exec i s = .next t ∧ exec i { s with crcOk := ok, expLen := len } = .next t' :=
  ⟨.decRegs, awaiting 9 3 [9, 3, 2, 0, 5, 0x99, 0x86], _, _, true, 7, by decide, by decide, by decide, by decide, rfl, rfl⟩

/-- Another status register than the two that read CRC_OK and EXPLEN. -/
theorem witness_CrcOkAndExpLenAreReadByRdSrAlone_statusRegister :
    ∃ (i : Instr) (s t t' : State) (ok : Bool) (len : BitVec 18), i = .rdSr 6 ∧ i ≠ .rdSr 0 ∧ i ≠ .rdSr 7 ∧
      exec i s = .next t ∧ exec i { s with crcOk := ok, expLen := len } = .next t' :=
  ⟨.rdSr 6, State.reset, _, _, true, 7, rfl, by decide, by decide, rfl, rfl⟩

theorem witness_EachRegisterHasItsWriters_encoder :
    ∃ (i : Instr) (s t : State), exec i s = .next t ∧ t.crc ≠ s.crc ∧ t.reqSlave ≠ s.reqSlave ∧ t.reqFc ≠ s.reqFc ∧
      t.reqValid ≠ s.reqValid :=
  ⟨.encRaw 5 7, State.reset, _, rfl, by decide +kernel, by decide +kernel, by decide +kernel, by decide +kernel⟩

theorem witness_EachRegisterHasItsWriters_flags :
    ∃ (i : Instr) (s t : State), exec i s = .next t ∧ t.crcOk ≠ s.crcOk ∧ t.expLen ≠ s.expLen :=
  ⟨.srst, { State.reset with crcOk := true, expLen := 9 }, _, rfl, by decide, by decide⟩

theorem witness_EachBufferHasItsWriters :
    ∃ (i : Instr) (s t : State), exec i s = .next t ∧ t.pay ≠ s.pay ∧ t.tx ≠ s.tx ∧ t.rx ≠ s.rx ∧ t.out ≠ s.out :=
  ⟨.srst, holding [1] [2] [3] [4], _, rfl, by decide, by decide, by decide, by decide⟩

theorem witness_ReadCommands_success :
    ∃ (i : Instr) (s t : State) (c : Completion), i.op ∈ [Op.rdTx, .rdRx, .rdOut, .rdReg, .rdSr] ∧
      exec i s = .next t ∧ t.trace = s.trace ++ [c] ∧ c.cc = .ok :=
  ⟨.rdOut 0, holding [] [] [] [7], _, ⟨.ok, 7⟩, by decide, rfl, by decide, rfl⟩

theorem witness_ReadCommands_failure :
    ∃ (i : Instr) (s t : State) (c : Completion), i.op ∈ [Op.rdTx, .rdRx, .rdOut, .rdReg, .rdSr] ∧
      exec i s = .next t ∧ t.trace = s.trace ++ [c] ∧ c.cc ≠ .ok :=
  ⟨.rdReg 0, holding [] [] [] [7], _, ⟨.idx, 0⟩, by decide, rfl, by decide, by decide⟩

theorem witness_EveryStepKeepsTheInvariants :
    ∃ s t : State, Invariants s ∧ step s = .next t ∧ t ≠ s :=
  ⟨{ holding [1] [] [2] [3] with port := [.command 0x130D00000002], ecause := 3, ecmd := 0x17 }, _,
    ⟨by decide, by decide, by decide, by decide, by decide, by decide⟩, rfl, by decide +kernel⟩

/-- A latched request, the case in which the latch invariant says something. -/
theorem witness_EveryStepKeepsTheInvariants_latched :
    Invariants { awaiting 5 7 [] with tx := [0x05, 0x07, 0x43, 0x22] } :=
  ⟨by decide, by decide, by decide +kernel, by decide, by decide, by decide⟩

/-- The least capacity that 00_scope.md R4 allows. -/
theorem witness_ResetMeetsTheInvariants : Config.wf { bufBytes := 255 } := by decide

/-- A command and a reset assertion taken, a command left. -/
theorem witness_EveryRunAnswersEveryCommand :
    ∃ (s : State) (inputs rest : List HostInput), s.port = inputs ++ rest ∧ inputs.length = 2 ∧ rest ≠ [] :=
  ⟨{ State.reset with port := [.command 0x010000000000, .reset [0], .command 0] },
    [.command 0x010000000000, .reset [0]], [.command 0], rfl, rfl, by decide⟩

/-- 125 registers, the most that the default capacity holds in a response. -/
theorem witness_AReadTransaction :
    State.reset.cfg.wf ∧ (List.replicate 125 (0x1234 : Half)).length < 65536 ∧
    2 * (List.replicate 125 (0x1234 : Half)).length + 5 ≤ State.reset.cfg.bufBytes := by decide +kernel

theorem witness_HostWait_decreases :
    (0 : Rat) < 2 ∧ 0 < (HostConfig.mk 1200 2 100 false).baud ∧
    (HostConfig.mk 1200 2 100 false).baud < (HostConfig.mk 19200 2 100 false).baud ∧
    (HostConfig.mk 19200 2 100 false).baud ≤ 19200 ∧
    (HostConfig.mk 1200 2 100 false).multiplier = (HostConfig.mk 19200 2 100 false).multiplier :=
  ⟨by norm_num, by decide, by decide, by decide, rfl⟩

theorem witness_HostWait_fixed :
    ((HostConfig.mk 0 2 100 false).baud = 0 ∨ 19200 < (HostConfig.mk 0 2 100 false).baud) ∧
    ((HostConfig.mk 19201 2 100 false).baud = 0 ∨ 19200 < (HostConfig.mk 19201 2 100 false).baud) := by decide

end Sys2Proof.Tests
end

/-!
PROOFS. Steps and runs (00_scope.md R5, R9): what a step does with a presented word, that every command answers with exactly
one completion record, and that a run takes its inputs in order.
-/

namespace Sys2Proof.Machine

/-! ## A step on a presented word (00_scope.md R5) -/

/-- A legal word presented next is executed with that input taken. -/
theorem step_command {s : State} {w : CmdWord} {rest : List HostInput} {i : Instr}
    (hport : s.port = .command w :: rest) (hdec : decode w = .command i) :
    step s = exec i { s with port := rest } := by
  simp only [step, State.takeInput_cons s _ _ hport, hdec]

/-- An illegal word presented next fails with that input taken (30_encoding.md R73). -/
theorem step_illegal {s : State} {w : CmdWord} {rest : List HostInput} {why : Illegal}
    (hport : s.port = .command w :: rest) (hdec : decode w = .illegal why) :
    step s = execIllegal w { s with port := rest } := by
  simp only [step, State.takeInput_cons s _ _ hport, hdec]

/-- A word numbered as the table numbers it is itself (log 9). -/
@[simp] theorem tableWord_toNat (w : CmdWord) : tableWord 48 w.toNat = w := by
  rw [tableWord, Nat.mod_eq_of_lt w.isLt, BitVec.ofNat_toNat, BitVec.setWidth_eq]

/-- Placing a word presents it (log 9). -/
@[simp] theorem State.withFetchWord_toNat (s : State) (w : CmdWord) : s.withFetchWord 48 w.toNat = s.present w := by
  rw [State.withFetchWord, tableWord_toNat]

/-- Settles O1: the next word is taken and decoded, and a placed word is the next one. -/
theorem stepExecutesTheDecodedCommand : Obligations.StepExecutesTheDecodedCommand := by
  refine ⟨fun s w rest i hport hdec => step_command hport hdec, fun s w i hdec => ?_⟩
  rw [State.withFetchWord_toNat]
  exact step_command (State.present_port s w) hdec

/-! ## Every command answers once (60_exceptions.md R190) -/

/-- What stands outside the block's registers and buffers, the two lists of the host and the parameters, is the same in both
states. -/
def SameOutside (s s' : State) : Prop := s'.trace = s.trace ∧ s'.cfg = s.cfg ∧ s'.port = s.port

/-- From `s`, the result is a next state with one record more, result 0 on failure, the parameters and the list of inputs
kept. -/
def AnswersOnce (s : State) (r : Result) : Prop :=
  ∃ t c, r = .next t ∧ t.trace = s.trace ++ [c] ∧ (c.cc ≠ .ok → c.res = 0) ∧ t.cfg = s.cfg ∧ t.port = s.port

/-- Completing with `OK` answers once, whatever the command wrote in the block before. -/
theorem complete_ok_answersOnce {s s' : State} (h : SameOutside s s') (res : Res) :
    AnswersOnce s (complete .ok res s') := by
  obtain ⟨htrace, hcfg, hport⟩ := h
  exact ⟨s'.deliver .ok res, ⟨.ok, res⟩, rfl, by simp [htrace], fun hc => absurd rfl hc, by simp [hcfg], by simp [hport]⟩

/-- Error entry answers once, whatever the command wrote in the block before. -/
theorem fail_answersOnce {s s' : State} (h : SameOutside s s') (code : Code) (opcode : Byte) :
    AnswersOnce s (fail code opcode s') := by
  obtain ⟨htrace, hcfg, hport⟩ := h
  exact ⟨_, ⟨code, 0⟩, fail_next code opcode s', by simp [htrace], fun _ => rfl, by simp [hcfg], by simp [hport]⟩

theorem emit_answersOnce (slave fc : Byte) (payload : List Byte) (s : State) :
    AnswersOnce s (emit slave fc payload s) :=
  complete_ok_answersOnce ⟨rfl, rfl, rfl⟩ _

theorem reject_answersOnce (code : Code) (opcode : Byte) (s : State) : AnswersOnce s (reject code opcode s) :=
  fail_answersOnce ⟨rfl, rfl, rfl⟩ code opcode

theorem rejectResponse_answersOnce (code : Code) (opcode : Byte) (s : State) :
    AnswersOnce s (rejectResponse code opcode s) :=
  fail_answersOnce ⟨rfl, rfl, rfl⟩ code opcode

theorem readByte_answersOnce (buf : Buffer) (i : Half) (opcode : Byte) (s : State) :
    AnswersOnce s (readByte buf i opcode s) := by
  obtain ⟨d, -, hread⟩ | ⟨-, hread⟩ := readByte_cases buf i opcode s
  · rw [hread]; exact complete_ok_answersOnce ⟨rfl, rfl, rfl⟩ _
  · rw [hread]; exact fail_answersOnce ⟨rfl, rfl, rfl⟩ _ _

/-- A choice between two results that answer once answers once. -/
theorem AnswersOnce.ite {s : State} {p : Prop} [Decidable p] {r r' : Result} (h : AnswersOnce s r) (h' : AnswersOnce s r') :
    AnswersOnce s (if p then r else r') := by
  split
  · exact h
  · exact h'

theorem execRdReg_answersOnce (i : Half) (s : State) : AnswersOnce s (execRdReg i s) := by
  unfold execRdReg
  split
  · exact complete_ok_answersOnce ⟨rfl, rfl, rfl⟩ _
  · exact fail_answersOnce ⟨rfl, rfl, rfl⟩ _ _

theorem execRdSr_answersOnce (n : Half) (s : State) : AnswersOnce s (execRdSr n s) := by
  unfold execRdSr
  split
  · exact complete_ok_answersOnce ⟨rfl, rfl, rfl⟩ _
  · exact fail_answersOnce ⟨rfl, rfl, rfl⟩ _ _

theorem execPred_answersOnce (s : State) : AnswersOnce s (execPred s) := by
  unfold execPred
  split
  · exact fail_answersOnce ⟨rfl, rfl, rfl⟩ _ _
  · exact complete_ok_answersOnce ⟨rfl, rfl, rfl⟩ _

/-- Every command answers once (R190): each path of each command ends in one `complete`, `fail`, `emit`, `reject` or
`rejectResponse`. -/
theorem exec_answersOnce (i : Instr) (s : State) : AnswersOnce s (exec i s) := by
  cases i with
  | nop | crcInit | crcUpd | crcRd | clrPay | clrRx | clrErr | srst => exact complete_ok_answersOnce ⟨rfl, rfl, rfl⟩ _
  | encRc | encRdi | encRhr | encRir | encWsc | encWsr => exact emit_answersOnce _ _ _ s
  | rdTx | rdRx | rdOut => exact readByte_answersOnce _ _ _ s
  | rdReg i => exact execRdReg_answersOnce i s
  | rdSr n => exact execRdSr_answersOnce n s
  | pred => exact execPred_answersOnce s
  | crcFrame | pushPay | pushRx =>
    exact .ite (fail_answersOnce ⟨rfl, rfl, rfl⟩ _ _) (complete_ok_answersOnce ⟨rfl, rfl, rfl⟩ _)
  | crcChk => exact .ite (complete_ok_answersOnce ⟨rfl, rfl, rfl⟩ _) (complete_ok_answersOnce ⟨rfl, rfl, rfl⟩ _)
  | encRaw => exact .ite (reject_answersOnce _ _ s) (emit_answersOnce _ _ _ s)
  | encWmr =>
    exact .ite (reject_answersOnce _ _ s) (.ite (reject_answersOnce _ _ s)
      (.ite (reject_answersOnce _ _ s) (emit_answersOnce _ _ _ s)))
  | decBits =>
    exact .ite (rejectResponse_answersOnce _ _ s) (.ite (rejectResponse_answersOnce _ _ s)
      (complete_ok_answersOnce ⟨rfl, rfl, rfl⟩ _))
  | decRegs =>
    exact .ite (rejectResponse_answersOnce _ _ s) (.ite (rejectResponse_answersOnce _ _ s)
      (.ite (rejectResponse_answersOnce _ _ s) (complete_ok_answersOnce ⟨rfl, rfl, rfl⟩ _)))
  | decWr => exact .ite (rejectResponse_answersOnce _ _ s) (complete_ok_answersOnce ⟨rfl, rfl, rfl⟩ _)

/-- A step on any presented word, legal or illegal, answers once (R190, 30_encoding.md R73). -/
theorem step_command_answersOnce {s : State} {w : CmdWord} {rest : List HostInput} (hport : s.port = .command w :: rest) :
    AnswersOnce { s with port := rest } (step s) := by
  cases hdec : decode w with
  | command i => rw [step_command hport hdec]; exact exec_answersOnce i _
  | illegal why => rw [step_illegal hport hdec]; exact fail_answersOnce ⟨rfl, rfl, rfl⟩ _ _

/-! ## Runs (00_scope.md R9) -/

/-- The first input and the others are counted apart. -/
theorem commandCount_cons (x : HostInput) (xs : List HostInput) :
    commandCount (x :: xs) = commandCount [x] + commandCount xs :=
  List.countP_append (l₁ := [x]) (l₂ := xs)

/-- One step takes one input: a command word is answered once, a reset assertion is not answered (70_reset_and_hazards.md
R221). -/
theorem step_takes {s : State} {x : HostInput} {rest : List HostInput} (hport : s.port = x :: rest) :
    ∃ t records, step s = .next t ∧ t.port = rest ∧ t.trace = s.trace ++ records ∧
      records.length = commandCount [x] ∧ t.cfg = s.cfg := by
  cases x with
  | command w =>
    obtain ⟨t, c, hstep, htrace, -, hcfg, hrest⟩ := step_command_answersOnce hport
    exact ⟨t, [c], hstep, hrest, htrace, rfl, hcfg⟩
  | reset words => exact ⟨_, [], step_reset hport, rfl, (List.append_nil _).symm, rfl, rfl⟩

/-- Settles O58, by induction on the inputs. -/
theorem everyRunAnswersEveryCommandAndEndsIdle : Obligations.EveryRunAnswersEveryCommandAndEndsIdle := by
  intro s inputs rest hport
  induction inputs generalizing s with
  | nil => exact ⟨s, [], run_zero Sys2Proof.core s, hport, (List.append_nil _).symm, rfl, rfl⟩
  | cons x xs ih =>
    obtain ⟨u, first, hstep, hu, hfirst, hcount, hcfg⟩ := step_takes hport
    obtain ⟨t, others, hrun, ht, hothers, hcounts, hcfgs⟩ := ih u hu
    refine ⟨t, first ++ others, (run_succ hstep xs.length).trans hrun, ht, ?_, ?_, hcfgs.trans hcfg⟩
    · rw [hothers, hfirst, List.append_assoc]
    · rw [List.length_append, hcount, hcounts, ← commandCount_cons]

end Sys2Proof.Machine

/-!
PROOFS. Reset and the invariants (10_state.md R27, R28): the values after reset, and that every step keeps I-a to I-e. For each
group of writes one lemma says why the invariants outlive it; a step is then a choice among these.
-/

namespace Sys2Proof.Machine

/-! ## Where a result ends -/

/-- The result is a next state with the property. -/
def Ends (P : State → Prop) (r : Result) : Prop := ∃ t, r = .next t ∧ P t

/-- The next state of a result has the property the result ends in. -/
theorem Ends.of_next {P : State → Prop} {r : Result} {t : State} (h : Ends P r) (hr : r = .next t) : P t := by
  obtain ⟨u, hu, hP⟩ := h
  cases hr.symm.trans hu
  exact hP

/-- A choice ends in a property when both results do, each where it is chosen. -/
theorem Ends.ite {P : State → Prop} {p : Prop} [Decidable p] {r r' : Result} (h : p → Ends P r) (h' : ¬ p → Ends P r') :
    Ends P (if p then r else r') := by
  split
  · exact h ‹_›
  · exact h' ‹_›

/-! ## The values after reset (10_state.md R28) -/

/-- Error entry is a failure in the terms of the statements (60_exceptions.md R192). -/
theorem fail_failedAs (code : Code) (opcode : Byte) (s : State) : Ends (FailedAs code opcode s) (fail code opcode s) := by
  refine ⟨_, fail_next code opcode s, fun h => ?_, fun h => ?_⟩
  · rw [State.recordError_first h]; rfl
  · rw [State.recordError_sticky h]; rfl

/-- A command that is error entry fails. -/
theorem fails_of_exec_eq {i : Instr} {s s' : State} {code : Code} {opcode : Byte} (h : exec i s = fail code opcode s') :
    Fails i s code opcode s' := by
  unfold Fails
  rw [h]
  exact fail_failedAs code opcode s'

/-- `RD.REG` outside the content of OUT (44_buffer_and_system.md R168). -/
theorem execRdReg_of_le {s : State} {i : Half} (h : s.out.length ≤ 2 * i.toNat + 1) :
    execRdReg i s = fail .idx Op.rdReg.code s := by
  simp [execRdReg, List.getElem?_eq_none h]

/-- A reset leaves the reset values, whatever the state was. -/
theorem resetValues_toReset (s : State) : ResetValues s.toReset := by
  refine ⟨rfl, rfl, rfl, rfl, rfl, rfl, rfl, rfl, rfl, rfl, rfl, rfl, fun k => ⟨?_, ?_, ?_, ?_⟩⟩
  · exact fails_of_exec_eq (readByte_of_le (buf := []) (i := k) (Nat.zero_le _) _ _)
  · exact fails_of_exec_eq (readByte_of_le (buf := []) (i := k) (Nat.zero_le _) _ _)
  · exact fails_of_exec_eq (readByte_of_le (buf := []) (i := k) (Nat.zero_le _) _ _)
  · exact fails_of_exec_eq (execRdReg_of_le (s := s.toReset) (i := k) (Nat.zero_le _))

/-- Settles O7: both states are what `toReset` makes of some state. -/
theorem resetLeavesTheResetValues : Obligations.ResetLeavesTheResetValues :=
  ⟨resetValues_toReset State.reset,
    fun s _ rest hport => ⟨_, step_reset hport, resetValues_toReset { s with port := rest }, rfl⟩⟩

/-! ## The invariants and each group of writes (10_state.md R27) -/

/-- After a reset the invariants ask for legal parameters only. -/
theorem invariants_toReset {s : State} (h : s.cfg.wf) : Invariants s.toReset where
  config := h
  buffers := Memory.wf_toReset s
  latch := fun hvalid => Bool.noConfusion hvalid
  noLatch := fun _ => ⟨rfl, rfl⟩
  noCause := fun _ => rfl
  cause := Code.ok.bits_assigned

/-- Settles O57: the default parameters are legal, and the reset state with any legal parameters is a state after reset. -/
theorem resetMeetsTheInvariants : Obligations.ResetMeetsTheInvariants :=
  ⟨invariants_toReset (s := State.reset) (by decide),
    fun cfg port trace h => invariants_toReset (s := { State.reset with cfg := cfg, port := port, trace := trace }) h⟩

namespace Invariants

/-- The lists of the host are in no invariant. -/
theorem withHost {s : State} (h : Invariants s) (port : List HostInput) (trace : List Completion) :
    Invariants { s with port := port, trace := trace } :=
  ⟨h.config, h.buffers, h.latch, h.noLatch, h.noCause, h.cause⟩

/-- Writes that leave TX, the latch and the first-error record alone need the form of the three other buffers only. -/
theorem withReceived {s : State} (h : Invariants s) {pay rx out : Buffer} (hpay : Buffer.wf s.cfg.bufBytes pay)
    (hrx : Buffer.wf s.cfg.bufBytes rx) (hout : Buffer.wf s.cfg.bufBytes out) (crc : Half) (ok : Bool) (len : BitVec 18) :
    Invariants { s with pay := pay, rx := rx, out := out, crc := crc, crcOk := ok, expLen := len } := by
  obtain ⟨-, htx, -, -⟩ := h.buffers
  exact ⟨h.config, ⟨hpay, htx, hrx, hout⟩, h.latch, h.noLatch, h.noCause, h.cause⟩

/-- CRC, CRC_OK and EXPLEN are in no invariant. -/
theorem withChecks {s : State} (h : Invariants s) (crc : Half) (ok : Bool) (len : BitVec 18) :
    Invariants { s with crc := crc, crcOk := ok, expLen := len } := by
  obtain ⟨hpay, -, hrx, hout⟩ := h.buffers
  exact h.withReceived hpay hrx hout crc ok len

/-- Decoded data that has the form of a buffer takes the place of OUT. -/
theorem withOut {s : State} (h : Invariants s) {out : Buffer} (hout : Buffer.wf s.cfg.bufBytes out) :
    Invariants { s with out := out } := by
  obtain ⟨hpay, -, hrx, -⟩ := h.buffers
  exact h.withReceived hpay hrx hout s.crc s.crcOk s.expLen

/-- A stripped response takes the place of OUT. -/
theorem withStripped {s : State} (h : Invariants s) : Invariants { s with out := strip s.rx } := by
  obtain ⟨-, -, hrx, -⟩ := h.buffers
  exact h.withOut (Buffer.wf_strip hrx)

/-- With the request cleared, TX may hold any buffer (I-b, I-c). -/
theorem withoutRequest {s : State} (h : Invariants s) {tx : Buffer} (htx : Buffer.wf s.cfg.bufBytes tx) (crc : Half) :
    Invariants { s.clearRequest with tx := tx, crc := crc } := by
  obtain ⟨hpay, -, hrx, hout⟩ := h.buffers
  exact ⟨h.config, ⟨hpay, htx, hrx, hout⟩, fun hvalid => Bool.noConfusion hvalid, fun _ => ⟨rfl, rfl⟩, h.noCause, h.cause⟩

/-- The empty first-error record (I-d, I-e). -/
theorem withoutError {s : State} (h : Invariants s) : Invariants { s with ecause := 0, ecmd := 0 } :=
  ⟨h.config, h.buffers, h.latch, h.noLatch, fun _ => rfl, Code.ok.bits_assigned⟩

/-- Delivering a record keeps the invariants. -/
theorem deliver {s : State} (h : Invariants s) (cc : Code) (res : Res) : Invariants (s.deliver cc res) :=
  h.withHost s.port _

/-- Recording a failure: its code is assigned and not 0 (I-d, I-e). -/
theorem recordError {s : State} (h : Invariants s) {code : Code} (hcode : code ≠ .ok) (opcode : Byte) :
    Invariants (s.recordError code opcode) := by
  by_cases hempty : s.ecause = 0
  · rw [State.recordError_first hempty]
    exact ⟨h.config, h.buffers, h.latch, h.noLatch, fun hzero => absurd ((Code.bits_eq_zero code).mp hzero) hcode,
      code.bits_assigned⟩
  · rwa [State.recordError_sticky hempty]

end Invariants

/-! ## The frame an encoder leaves (10_state.md R27 I-b, 41_frame_encode.md R101) -/

/-- All but the trailer of data with its CRC is the data (40_crc_engine.md R82). -/
theorem take_crcAppend (data : List Byte) : (crcAppend data).take ((crcAppend data).length - 2) = data := by
  simp [crcAppend]

/-- The last byte but one of data with its CRC is the low byte of the CRC (20_memory.md R43). -/
theorem crcAppend_trailer_low (data : List Byte) :
    (crcAppend data)[(crcAppend data).length - 2]? = some (loByte (crc16 data)) := by
  simp [crcAppend, crcTrailer]

/-- The last byte of data with its CRC is the high byte of the CRC (20_memory.md R43). -/
theorem crcAppend_trailer_high (data : List Byte) :
    (crcAppend data)[(crcAppend data).length - 1]? = some (hiByte (crc16 data)) := by
  simp [crcAppend, crcTrailer]

/-- A state that latches the request it holds in TX has I-b. -/
theorem latchDescribesTx_of_adu {s : State} {payload : List Byte} (htx : s.tx = adu s.reqSlave s.reqFc payload) :
    LatchDescribesTx s := by
  intro _
  rw [htx]
  refine ⟨by simp, rfl, rfl, ?_, ?_⟩
  · rw [adu, take_crcAppend]; exact crcAppend_trailer_low _
  · rw [adu, take_crcAppend]; exact crcAppend_trailer_high _

/-- A request whose frame fits, with its latch. -/
theorem Invariants.withRequest {s : State} (h : Invariants s) {payload : List Byte}
    (hfit : payload.length + 4 ≤ s.cfg.bufBytes) (slave fc : Byte) (crc : Half) :
    Invariants ({ s with crc := crc, tx := adu slave fc payload }.latchRequest slave fc) := by
  obtain ⟨hpay, -, hrx, hout⟩ := h.buffers
  exact ⟨h.config, ⟨hpay, Buffer.wf_adu hfit slave fc, hrx, hout⟩, latchDescribesTx_of_adu rfl,
    fun hvalid => Bool.noConfusion hvalid, h.noCause, h.cause⟩

/-! ## Every command keeps the invariants -/

theorem complete_keepsInvariants {s : State} {cc : Code} {res : Res} (h : Invariants s) :
    Ends Invariants (complete cc res s) :=
  ⟨_, complete_next cc res s, h.deliver cc res⟩

theorem fail_keepsInvariants {s : State} {code : Code} {opcode : Byte} (h : Invariants s) (hcode : code ≠ .ok) :
    Ends Invariants (fail code opcode s) :=
  ⟨_, fail_next code opcode s, (h.recordError hcode opcode).deliver code 0⟩

theorem emit_keepsInvariants {s : State} (h : Invariants s) {payload : List Byte}
    (hfit : payload.length + 4 ≤ s.cfg.bufBytes) (slave fc : Byte) : Ends Invariants (emit slave fc payload s) :=
  complete_keepsInvariants (h.withRequest hfit slave fc _)

/-- The requests of two fields, 8 bytes with the CRC, fit every legal buffer. -/
theorem emit_twoFields_keepsInvariants {s : State} (h : Invariants s) (slave fc : Byte) (a b : Half) :
    Ends Invariants (emit slave fc (twoFields a b) s) := by
  obtain ⟨hcapacity, -⟩ := h.config
  exact emit_keepsInvariants h (Nat.le_trans (by simp [twoFields]) hcapacity) slave fc

theorem reject_keepsInvariants {s : State} {code : Code} {opcode : Byte} (h : Invariants s) (hcode : code ≠ .ok) :
    Ends Invariants (reject code opcode s) :=
  fail_keepsInvariants (h.withoutRequest (Buffer.wf_nil _) s.crc) hcode

theorem rejectResponse_keepsInvariants {s : State} {code : Code} {opcode : Byte} (h : Invariants s) (hcode : code ≠ .ok) :
    Ends Invariants (rejectResponse code opcode s) :=
  fail_keepsInvariants (h.withOut (Buffer.wf_nil _)) hcode

theorem readByte_keepsInvariants {s : State} (h : Invariants s) (buf : Buffer) (i : Half) (opcode : Byte) :
    Ends Invariants (readByte buf i opcode s) := by
  obtain ⟨d, -, hread⟩ | ⟨-, hread⟩ := readByte_cases buf i opcode s
  · rw [hread]; exact complete_keepsInvariants h
  · rw [hread]; exact fail_keepsInvariants h (by decide)

theorem execRdReg_keepsInvariants {s : State} (h : Invariants s) (i : Half) : Ends Invariants (execRdReg i s) := by
  unfold execRdReg
  split
  · exact complete_keepsInvariants h
  · exact fail_keepsInvariants h (by decide)

theorem execRdSr_keepsInvariants {s : State} (h : Invariants s) (n : Half) : Ends Invariants (execRdSr n s) := by
  unfold execRdSr
  split
  · exact complete_keepsInvariants h
  · exact fail_keepsInvariants h (by decide)

theorem execPred_keepsInvariants {s : State} (h : Invariants s) : Ends Invariants (execPred s) := by
  unfold execPred
  split
  · exact fail_keepsInvariants h (by decide)
  · exact complete_keepsInvariants (h.withChecks s.crc s.crcOk _)

/-- The validated quantity bounds the frame: 123 registers make 255 bytes, the least legal capacity (00_scope.md R4). -/
theorem execEncWmr_keepsInvariants {s : State} (h : Invariants s) (slave : Byte) (addr qty : Half) :
    Ends Invariants (execEncWmr slave addr qty s) := by
  refine .ite (fun _ => reject_keepsInvariants h (by decide)) fun _ =>
    .ite (fun _ => reject_keepsInvariants h (by decide)) fun hqty =>
    .ite (fun _ => reject_keepsInvariants h (by decide)) fun hlen => emit_keepsInvariants h ?_ _ _
  obtain ⟨hcapacity, -⟩ := h.config
  simp only [Config.wmrQtyMax] at hqty
  simp only [twoFields, List.length_append, be16_length, List.length_singleton]
  omega

/-- Every command keeps the invariants: each path writes one group of registers and buffers and then completes or fails. -/
theorem exec_keepsInvariants (i : Instr) {s : State} (h : Invariants s) : Ends Invariants (exec i s) := by
  obtain ⟨hpay, -, hrx, hout⟩ := h.buffers
  cases i with
  | nop | crcRd => exact complete_keepsInvariants h
  | crcInit | crcUpd => exact complete_keepsInvariants (h.withChecks _ s.crcOk s.expLen)
  | crcFrame =>
    exact .ite (fun _ => fail_keepsInvariants (h.withoutRequest (Buffer.wf_nil _) s.crc) (by decide))
      fun hfit => complete_keepsInvariants (h.withoutRequest (Buffer.wf_crcAppend (Nat.le_of_not_lt hfit)) _)
  | crcChk =>
    exact .ite (fun _ => complete_keepsInvariants (h.withChecks s.crc _ s.expLen))
      fun _ => complete_keepsInvariants (h.withChecks _ _ s.expLen)
  | encRaw =>
    exact .ite (fun _ => reject_keepsInvariants h (by decide))
      fun hfit => emit_keepsInvariants h (Nat.le_of_not_lt hfit) _ _
  | encRc | encRdi | encRhr | encRir | encWsc | encWsr => exact emit_twoFields_keepsInvariants h _ _ _ _
  | encWmr slave addr qty => exact execEncWmr_keepsInvariants h slave addr qty
  | decBits =>
    exact .ite (fun hrefused => rejectResponse_keepsInvariants h hrefused) fun _ =>
      .ite (fun _ => rejectResponse_keepsInvariants h (by decide)) fun _ =>
      complete_keepsInvariants h.withStripped
  | decRegs =>
    exact .ite (fun hrefused => rejectResponse_keepsInvariants h hrefused) fun _ =>
      .ite (fun _ => rejectResponse_keepsInvariants h (by decide)) fun _ =>
      .ite (fun _ => rejectResponse_keepsInvariants h (by decide)) fun _ =>
      complete_keepsInvariants h.withStripped
  | decWr =>
    exact .ite (fun hrefused => rejectResponse_keepsInvariants h hrefused) fun _ =>
      complete_keepsInvariants (h.withOut (Buffer.wf_nil _))
  | pred => exact execPred_keepsInvariants h
  | pushPay d =>
    exact .ite (fun _ => fail_keepsInvariants h (by decide)) fun hroom =>
      complete_keepsInvariants (h.withReceived (Buffer.wf_push hpay hroom d) hrx hout s.crc s.crcOk s.expLen)
  | pushRx d =>
    exact .ite (fun _ => fail_keepsInvariants h (by decide)) fun hroom =>
      complete_keepsInvariants (h.withReceived hpay (Buffer.wf_push hrx hroom d) hout s.crc _ s.expLen)
  | clrPay =>
    exact complete_keepsInvariants (h.withReceived (Buffer.wf_nil _) hrx hout s.crc s.crcOk s.expLen)
  | clrRx => exact complete_keepsInvariants (h.withReceived hpay (Buffer.wf_nil _) hout s.crc _ s.expLen)
  | rdTx | rdRx | rdOut => exact readByte_keepsInvariants h _ _ _
  | rdReg i => exact execRdReg_keepsInvariants h i
  | rdSr n => exact execRdSr_keepsInvariants h n
  | clrErr => exact complete_keepsInvariants h.withoutError
  | srst => exact complete_keepsInvariants (invariants_toReset h.config)

/-- With nothing presented a step is idle (00_scope.md R9; log 3). -/
theorem step_idle {s : State} (h : s.port = []) : step s = .next s := by
  simp only [step, State.takeInput_nil s h]; rfl

/-- Every step keeps the invariants, whatever is presented. -/
theorem step_keepsInvariants {s : State} (h : Invariants s) : Ends Invariants (step s) := by
  cases hport : s.port with
  | nil => exact ⟨s, step_idle hport, h⟩
  | cons x rest =>
    have htaken : Invariants { s with port := rest } := h.withHost rest s.trace
    cases x with
    | reset words => exact ⟨_, step_reset hport, invariants_toReset htaken.config⟩
    | command w =>
      cases hdec : decode w with
      | command i => rw [step_command hport hdec]; exact exec_keepsInvariants i htaken
      | illegal why => rw [step_illegal hport hdec]; exact fail_keepsInvariants htaken (by decide)

/-- Settles O56: the step is one of the cases above. -/
theorem everyStepKeepsTheInvariants : Obligations.EveryStepKeepsTheInvariants :=
  fun _ _ h hstep => (step_keepsInvariants h).of_next hstep

end Sys2Proof.Machine

/-!
PROOFS. Who writes and who reads the registers and buffers (10_state.md R13 to R19): what a command changes is its own to
write, and two states that differ in registers a command does not read go on in lockstep.
-/

namespace Sys2Proof.Machine

/-! ## Writers (10_state.md R13 to R16, R18, R19) -/

/-- Where `t` differs from `s`, the row `op` is one of the writers that the rules list. -/
structure ChangedByWriters (op : Op) (s t : State) : Prop where
  crc : t.crc ≠ s.crc → isEncoder op = true ∨ op ∈ [.crcInit, .crcUpd, .crcFrame, .crcChk, .srst]
  latch : (t.reqSlave ≠ s.reqSlave ∨ t.reqFc ≠ s.reqFc ∨ t.reqValid ≠ s.reqValid) →
    isEncoder op = true ∨ op ∈ [.crcFrame, .srst]
  crcOk : t.crcOk ≠ s.crcOk → op ∈ [.crcChk, .pushRx, .clrRx, .srst]
  expLen : t.expLen ≠ s.expLen → op ∈ [.pred, .srst]
  pay : t.pay ≠ s.pay → op ∈ [.pushPay, .clrPay, .srst]
  tx : t.tx ≠ s.tx → isEncoder op = true ∨ op ∈ [.crcFrame, .srst]
  rx : t.rx ≠ s.rx → op ∈ [.pushRx, .clrRx, .srst]
  out : t.out ≠ s.out → op ∈ [.decBits, .decRegs, .decWr, .srst]

namespace ChangedByWriters

/-- A row that writes nothing is no writer. -/
theorem refl (op : Op) (s : State) : ChangedByWriters op s s := by
  constructor <;> simp

/-- Of the registers and buffers, an encoder writes CRC, the latch and TX. -/
theorem encoder {op : Op} (h : isEncoder op = true) {s t : State}
    (ht : t = { s with crc := t.crc, tx := t.tx, reqSlave := t.reqSlave, reqFc := t.reqFc, reqValid := t.reqValid }) :
    ChangedByWriters op s t := by
  rw [ht]
  constructor <;> simp [h]

/-- Of the registers and buffers, a decoder writes OUT. -/
theorem decoder {op : Op} (h : op ∈ [.decBits, .decRegs, .decWr]) {s : State} (out : Buffer) :
    ChangedByWriters op s { s with out := out } where
  crc := fun hne => absurd rfl hne
  latch := by simp
  crcOk := fun hne => absurd rfl hne
  expLen := fun hne => absurd rfl hne
  pay := fun hne => absurd rfl hne
  tx := fun hne => absurd rfl hne
  rx := fun hne => absurd rfl hne
  out := fun _ => List.mem_append_left [Op.srst] h

/-- `SRST` writes every register and buffer. -/
theorem srst (s t : State) : ChangedByWriters .srst s t := by
  constructor <;> simp

/-- Error entry writes the first-error record only (60_exceptions.md R192). -/
theorem recordError {op : Op} {s s' : State} (h : ChangedByWriters op s s') (code : Code) (opcode : Byte) :
    ChangedByWriters op s (s'.recordError code opcode) := by
  by_cases hempty : s'.ecause = 0
  · rw [State.recordError_first hempty]
    exact ⟨h.crc, h.latch, h.crcOk, h.expLen, h.pay, h.tx, h.rx, h.out⟩
  · rwa [State.recordError_sticky hempty]

/-- Completing writes no register and no buffer. -/
theorem complete {op : Op} {s s' : State} {cc : Code} {res : Res} (h : ChangedByWriters op s s') :
    Ends (ChangedByWriters op s) (complete cc res s') :=
  ⟨_, complete_next cc res s', h.crc, h.latch, h.crcOk, h.expLen, h.pay, h.tx, h.rx, h.out⟩

theorem fail {op : Op} {s s' : State} {code : Code} {opcode : Byte} (h : ChangedByWriters op s s') :
    Ends (ChangedByWriters op s) (fail code opcode s') :=
  (h.recordError code opcode).complete

theorem emit {op : Op} (h : isEncoder op = true) (slave fc : Byte) (payload : List Byte) (s : State) :
    Ends (ChangedByWriters op s) (emit slave fc payload s) :=
  (encoder h rfl).complete

theorem reject {op : Op} (h : isEncoder op = true) (code : Code) (opcode : Byte) (s : State) :
    Ends (ChangedByWriters op s) (reject code opcode s) :=
  (encoder h rfl).fail

theorem rejectResponse {op : Op} (h : op ∈ [.decBits, .decRegs, .decWr]) (code : Code) (opcode : Byte) (s : State) :
    Ends (ChangedByWriters op s) (rejectResponse code opcode s) :=
  (decoder h []).fail

theorem readByte (op : Op) (buf : Buffer) (i : Half) (opcode : Byte) (s : State) :
    Ends (ChangedByWriters op s) (readByte buf i opcode s) := by
  obtain ⟨d, -, hread⟩ | ⟨-, hread⟩ := readByte_cases buf i opcode s
  · rw [hread]; exact (refl op s).complete
  · rw [hread]; exact (refl op s).fail

theorem execRdReg (i : Half) (s : State) : Ends (ChangedByWriters .rdReg s) (execRdReg i s) := by
  unfold Machine.execRdReg
  split
  · exact (refl .rdReg s).complete
  · exact (refl .rdReg s).fail

theorem execRdSr (n : Half) (s : State) : Ends (ChangedByWriters .rdSr s) (execRdSr n s) := by
  unfold Machine.execRdSr
  split
  · exact (refl .rdSr s).complete
  · exact (refl .rdSr s).fail

theorem execPred (s : State) : Ends (ChangedByWriters .pred s) (execPred s) := by
  unfold Machine.execPred
  split
  · exact (refl .pred s).fail
  · exact complete (by constructor <;> simp)

theorem execCrcFrame (s : State) : Ends (ChangedByWriters .crcFrame s) (execCrcFrame s) :=
  .ite (fun _ => fail (by constructor <;> simp)) (fun _ => complete (by constructor <;> simp))

theorem execCrcChk (s : State) : Ends (ChangedByWriters .crcChk s) (execCrcChk s) :=
  .ite (fun _ => complete (by constructor <;> simp)) (fun _ => complete (by constructor <;> simp))

/-- What a command changes is its own to write: each path writes registers and buffers of its row and then completes or
fails. -/
theorem exec (i : Instr) (s : State) : Ends (ChangedByWriters i.op s) (exec i s) := by
  cases i with
  | nop | crcRd => exact (refl _ s).complete
  | clrErr => exact complete (by constructor <;> simp)
  | crcInit | crcUpd | clrPay | clrRx => exact complete (by constructor <;> simp [Instr.op])
  | pushPay | pushRx =>
    exact .ite (fun _ => (refl _ s).fail) (fun _ => complete (by constructor <;> simp [Instr.op]))
  | crcFrame => exact execCrcFrame s
  | crcChk => exact execCrcChk s
  | encRaw => exact .ite (fun _ => reject rfl _ _ s) (fun _ => emit rfl _ _ _ s)
  | encRc | encRdi | encRhr | encRir | encWsc | encWsr => exact emit rfl _ _ _ s
  | encWmr =>
    exact .ite (fun _ => reject rfl _ _ s) fun _ => .ite (fun _ => reject rfl _ _ s) fun _ =>
      .ite (fun _ => reject rfl _ _ s) fun _ => emit rfl _ _ _ s
  | decBits =>
    exact .ite (fun _ => rejectResponse (by decide) _ _ s) fun _ => .ite (fun _ => rejectResponse (by decide) _ _ s) fun _ =>
      (decoder (by decide) _).complete
  | decRegs =>
    exact .ite (fun _ => rejectResponse (by decide) _ _ s) fun _ => .ite (fun _ => rejectResponse (by decide) _ _ s) fun _ =>
      .ite (fun _ => rejectResponse (by decide) _ _ s) fun _ => (decoder (by decide) _).complete
  | decWr => exact .ite (fun _ => rejectResponse (by decide) _ _ s) fun _ => (decoder (by decide) _).complete
  | pred => exact execPred s
  | rdTx | rdRx | rdOut => exact readByte _ _ _ _ s
  | rdReg i => exact execRdReg i s
  | rdSr n => exact execRdSr n s
  | srst => exact (srst s _).complete

end ChangedByWriters

/-- Settles O53: the clauses on the registers. -/
theorem eachRegisterHasItsWriters : Obligations.EachRegisterHasItsWriters := by
  intro i s t hexec
  have h := (ChangedByWriters.exec i s).of_next hexec
  exact ⟨h.crc, h.latch, h.crcOk, h.expLen⟩

/-- Settles O54: the clauses on the buffers. -/
theorem eachBufferHasItsWriters : Obligations.EachBufferHasItsWriters := by
  intro i s t hexec
  have h := (ChangedByWriters.exec i s).of_next hexec
  exact ⟨h.pay, h.tx, h.rx, h.out⟩

/-! ## Readers (10_state.md R13, R15, R16, R17): two runs in lockstep -/

/-- `s` with the five registers that hardly any command reads taken from `u`. -/
def State.withUnread (s u : State) : State :=
  { s with crc := u.crc, crcOk := u.crcOk, expLen := u.expLen, ecause := u.ecause, ecmd := u.ecmd }

/-- `t` and `t'`, reached from `s` and `s.withUnread u`, differ in those five registers at most, and in CRC, CRC_OK and EXPLEN
only where both are still as they were. What is recorded depends on the record before, so the record agrees where it agreed. Each
clause has the proof for a register left alone as its default, so that a proof names the registers written. -/
structure Alike (s u t t' : State) : Prop where
  rest : t' = t.withUnread t' := by rfl
  crc : t'.crc = t.crc ∨ (t.crc = s.crc ∧ t'.crc = u.crc) := by exact .inr ⟨rfl, rfl⟩
  crcOk : t'.crcOk = t.crcOk ∨ (t.crcOk = s.crcOk ∧ t'.crcOk = u.crcOk) := by exact .inr ⟨rfl, rfl⟩
  expLen : t'.expLen = t.expLen ∨ (t.expLen = s.expLen ∧ t'.expLen = u.expLen) := by exact .inr ⟨rfl, rfl⟩
  record : u.ecause = s.ecause ∧ u.ecmd = s.ecmd → t'.ecause = t.ecause ∧ t'.ecmd = t.ecmd := by exact id

/-- Error entry with the five registers of another state, in which it is made too. -/
theorem State.recordError_withUnread (t t' : State) (code : Code) (opcode : Byte) :
    (t.withUnread t').recordError code opcode = (t.recordError code opcode).withUnread (t'.recordError code opcode) := by
  have hcause : (t.withUnread t').ecause = t'.ecause := rfl
  simp only [State.recordError, hcause]
  split <;> split <;> rfl

namespace Alike

/-- The same record is delivered in both states. -/
theorem deliver {s u t t' : State} (h : Alike s u t t') (cc : Code) (res : Res) :
    Alike s u (t.deliver cc res) (t'.deliver cc res) :=
  ⟨congrArg (State.deliver · cc res) h.rest, h.crc, h.crcOk, h.expLen, h.record⟩

/-- The same failure is met in both states. -/
theorem recordError {s u t t' : State} (h : Alike s u t t') (code : Code) (opcode : Byte) :
    Alike s u (t.recordError code opcode) (t'.recordError code opcode) where
  rest := by rw [← State.recordError_withUnread, ← h.rest]
  crc := by simpa using h.crc
  crcOk := by simpa using h.crcOk
  expLen := by simpa using h.expLen
  record := fun hsame => by
    obtain ⟨hcause, hcmd⟩ := h.record hsame
    simp [hcause, hcmd]

end Alike

/-- The results from `s` and from `s.withUnread u` are next states that are alike. -/
def Lockstep (s u : State) (r r' : Result) : Prop := ∃ t t', r = .next t ∧ r' = .next t' ∧ Alike s u t t'

namespace Lockstep

/-- The next states of results in lockstep are alike. -/
theorem of_next {s u t t' : State} {r r' : Result} (h : Lockstep s u r r') (hr : r = .next t) (hr' : r' = .next t') :
    Alike s u t t' := by
  obtain ⟨v, v', hv, hv', halike⟩ := h
  cases hr.symm.trans hv
  cases hr'.symm.trans hv'
  exact halike

/-- A choice made on what both states agree in. -/
theorem ite {s u : State} {p : Prop} [Decidable p] {r₁ r₁' r₂ r₂' : Result} (h₁ : Lockstep s u r₁ r₁')
    (h₂ : Lockstep s u r₂ r₂') : Lockstep s u (if p then r₁ else r₂) (if p then r₁' else r₂') := by
  split
  · exact h₁
  · exact h₂

theorem complete {s u t t' : State} {cc : Code} {res : Res} (h : Alike s u t t') :
    Lockstep s u (complete cc res t) (complete cc res t') :=
  ⟨_, _, rfl, rfl, h.deliver cc res⟩

theorem fail {s u t t' : State} {code : Code} {opcode : Byte} (h : Alike s u t t') :
    Lockstep s u (fail code opcode t) (fail code opcode t') :=
  ⟨_, _, rfl, rfl, (h.recordError code opcode).deliver code 0⟩

/-- An encoder writes the same CRC in both states. -/
theorem emit (slave fc : Byte) (payload : List Byte) (s u : State) :
    Lockstep s u (emit slave fc payload s) (emit slave fc payload (s.withUnread u)) :=
  complete { crc := .inl rfl }

theorem reject (code : Code) (opcode : Byte) (s u : State) :
    Lockstep s u (reject code opcode s) (reject code opcode (s.withUnread u)) :=
  fail {}

theorem rejectResponse (code : Code) (opcode : Byte) (s u : State) :
    Lockstep s u (rejectResponse code opcode s) (rejectResponse code opcode (s.withUnread u)) :=
  fail {}

theorem readByte (buf : Buffer) (i : Half) (opcode : Byte) (s u : State) :
    Lockstep s u (readByte buf i opcode s) (readByte buf i opcode (s.withUnread u)) := by
  unfold Machine.readByte
  split
  · exact complete {}
  · exact fail {}

end Lockstep

/-- Where the instruction reads one of the five registers, `u` has it as `s` has it: `CRC.UPD`, `CRC.RD` and `RD.SR 1` read
CRC, `RD.SR 0` CRC_OK and the first-error record, `RD.SR 7` EXPLEN. -/
structure AgreeInReads (i : Instr) (s u : State) : Prop where
  crc : ((∃ d, i = .crcUpd d) ∨ i = .crcRd ∨ i = .rdSr 1) → u.crc = s.crc
  crcOk : i = .rdSr 0 → u.crcOk = s.crcOk
  record : i = .rdSr 0 → u.ecause = s.ecause ∧ u.ecmd = s.ecmd
  expLen : i = .rdSr 7 → u.expLen = s.expLen

/-- A status register that holds none of the five, or one in which `s` and `u` agree, is the same in both states (10_state.md
R26). -/
theorem State.statusReg_withUnread {n : Half} {s u : State} (h : AgreeInReads (.rdSr n) s u) :
    (s.withUnread u).statusReg n.toNat = s.statusReg n.toNat := by
  have hnumber : ∀ k : Half, n.toNat = k.toNat → Instr.rdSr n = .rdSr k := fun k hk => by rw [BitVec.eq_of_toNat_eq hk]
  unfold State.statusReg
  split
  case h_1 hn =>
    obtain ⟨hcause, hcmd⟩ := h.record (hnumber 0 hn)
    simp [State.statusWord, State.withUnread, h.crcOk (hnumber 0 hn), hcause, hcmd]
  case h_2 hn => simp [State.withUnread, h.crc (.inr (.inr (hnumber 1 hn)))]
  case h_8 hn => simp [State.withUnread, h.expLen (hnumber 7 hn)]
  all_goals rfl

namespace Lockstep

theorem execRdReg (i : Half) (s u : State) : Lockstep s u (execRdReg i s) (execRdReg i (s.withUnread u)) := by
  have hout : (s.withUnread u).out = s.out := rfl
  unfold Machine.execRdReg
  rw [hout]
  split
  · exact complete {}
  · exact fail {}

theorem execRdSr {n : Half} {s u : State} (h : AgreeInReads (.rdSr n) s u) :
    Lockstep s u (execRdSr n s) (execRdSr n (s.withUnread u)) := by
  unfold Machine.execRdSr
  rw [State.statusReg_withUnread h]
  split
  · exact complete {}
  · exact fail {}

/-- `PRED` reads the parameters and TX, and writes EXPLEN alike. -/
theorem execPred (s u : State) : Lockstep s u (execPred s) (execPred (s.withUnread u)) := by
  have hpredict : predict (s.withUnread u).cfg (s.withUnread u).tx = predict s.cfg s.tx := rfl
  unfold Machine.execPred
  rw [hpredict]
  split
  · exact fail {}
  · exact complete { expLen := .inl rfl }

/-- `CRC.UPD` folds its byte into equal registers. -/
theorem execCrcUpd (d : Byte) {s u : State} (h : u.crc = s.crc) :
    Lockstep s u (execCrcUpd d s) (execCrcUpd d (s.withUnread u)) := by
  have hcrc : (s.withUnread u).crc = s.crc := h
  unfold Machine.execCrcUpd
  rw [hcrc]
  exact complete { crc := .inl rfl }

theorem execCrcRd {s u : State} (h : u.crc = s.crc) : Lockstep s u (execCrcRd s) (execCrcRd (s.withUnread u)) := by
  have hcrc : (s.withUnread u).crc = s.crc := h
  unfold Machine.execCrcRd
  rw [hcrc]
  exact complete {}

/-- `CRC.FRAME` recomputes CRC from PAY, or leaves it. -/
theorem execCrcFrame (s u : State) : Lockstep s u (execCrcFrame s) (execCrcFrame (s.withUnread u)) :=
  .ite (fail {}) (complete { crc := .inl rfl })

/-- `CRC.CHK` recomputes CRC_OK, and CRC too or leaves it, from RX. -/
theorem execCrcChk (s u : State) : Lockstep s u (execCrcChk s) (execCrcChk (s.withUnread u)) :=
  .ite (complete { crcOk := .inl rfl }) (complete { crc := .inl rfl, crcOk := .inl rfl })

/-- Every command goes in lockstep from two states that agree in what it reads: its choices and its writes are made on the
rest. -/
theorem exec {i : Instr} {s u : State} (h : AgreeInReads i s u) : Lockstep s u (exec i s) (exec i (s.withUnread u)) := by
  cases i with
  | nop | clrPay => exact complete {}
  | crcInit => exact complete { crc := .inl rfl }
  | crcUpd d => exact execCrcUpd d (h.crc (.inl ⟨d, rfl⟩))
  | crcRd => exact execCrcRd (h.crc (.inr (.inl rfl)))
  | crcFrame => exact execCrcFrame s u
  | crcChk => exact execCrcChk s u
  | encRaw => exact .ite (reject _ _ s u) (emit _ _ _ s u)
  | encRc | encRdi | encRhr | encRir | encWsc | encWsr => exact emit _ _ _ s u
  | encWmr => exact .ite (reject _ _ s u) (.ite (reject _ _ s u) (.ite (reject _ _ s u) (emit _ _ _ s u)))
  | decBits => exact .ite (rejectResponse _ _ s u) (.ite (rejectResponse _ _ s u) (complete {}))
  | decRegs =>
    exact .ite (rejectResponse _ _ s u) (.ite (rejectResponse _ _ s u) (.ite (rejectResponse _ _ s u) (complete {})))
  | decWr => exact .ite (rejectResponse _ _ s u) (complete {})
  | pred => exact execPred s u
  | pushPay => exact .ite (fail {}) (complete {})
  | pushRx => exact .ite (fail {}) (complete { crcOk := .inl rfl })
  | clrRx => exact complete { crcOk := .inl rfl }
  | rdTx | rdRx | rdOut => exact readByte _ _ _ s u
  | rdReg i => exact execRdReg i s u
  | rdSr n => exact execRdSr h
  | clrErr => exact complete { record := fun _ => ⟨rfl, rfl⟩ }
  | srst => exact complete { crc := .inl rfl, crcOk := .inl rfl, expLen := .inl rfl, record := fun _ => ⟨rfl, rfl⟩ }

end Lockstep

/-- A register that agreed before agrees after, whether it was written or left. -/
theorem eq_of_written_or_left {α : Type} {a b x y : α} (h : y = x ∨ (x = a ∧ y = b)) (hab : b = a) : y = x := by
  rcases h with h | ⟨hx, hy⟩
  · exact h
  · rw [hx, hy, hab]

namespace Alike

/-- States that agreed in CRC, CRC_OK and EXPLEN differ in the first-error record at most. -/
theorem eq_but_record {s u t t' : State} (h : Alike s u t t') (hcrc : u.crc = s.crc) (hok : u.crcOk = s.crcOk)
    (hlen : u.expLen = s.expLen) : t' = { t with ecause := t'.ecause, ecmd := t'.ecmd } := by
  have hrest := h.rest
  rwa [State.withUnread, eq_of_written_or_left h.crc hcrc, eq_of_written_or_left h.crcOk hok,
    eq_of_written_or_left h.expLen hlen] at hrest

/-- States that agreed in CRC_OK, EXPLEN and the first-error record differ in CRC at most. -/
theorem eq_but_crc {s u t t' : State} (h : Alike s u t t') (hok : u.crcOk = s.crcOk) (hlen : u.expLen = s.expLen)
    (hrecord : u.ecause = s.ecause ∧ u.ecmd = s.ecmd) : t' = { t with crc := t'.crc } := by
  have hrest := h.rest
  obtain ⟨hcause, hcmd⟩ := h.record hrecord
  rwa [State.withUnread, eq_of_written_or_left h.crcOk hok, eq_of_written_or_left h.expLen hlen, hcause, hcmd] at hrest

/-- States that agreed in CRC and the first-error record differ in CRC_OK and EXPLEN at most. -/
theorem eq_but_crcOk_expLen {s u t t' : State} (h : Alike s u t t') (hcrc : u.crc = s.crc)
    (hrecord : u.ecause = s.ecause ∧ u.ecmd = s.ecmd) : t' = { t with crcOk := t'.crcOk, expLen := t'.expLen } := by
  have hrest := h.rest
  obtain ⟨hcause, hcmd⟩ := h.record hrecord
  rwa [State.withUnread, eq_of_written_or_left h.crc hcrc, hcause, hcmd] at hrest

end Alike

/-- A step on a presented word, legal or illegal, goes in lockstep from two states that agree in what its command reads. -/
theorem step_lockstep {s u : State} {w : CmdWord} {rest : List HostInput} (hport : s.port = .command w :: rest)
    (hreads : ∀ i, decode w = .command i → AgreeInReads i s u) :
    Lockstep { s with port := rest } u (step s) (step (s.withUnread u)) := by
  have hport' : (s.withUnread u).port = .command w :: rest := hport
  cases hdec : decode w with
  | command i =>
    rw [step_command hport hdec, step_command hport' hdec]
    obtain ⟨hcrc, hok, hrecord, hlen⟩ := hreads i hdec
    exact .exec (s := { s with port := rest }) ⟨hcrc, hok, hrecord, hlen⟩
  | illegal why =>
    rw [step_illegal hport hdec, step_illegal hport' hdec]
    exact .fail {}

/-- Settles O50: the step goes in lockstep, and the states agreed in CRC, CRC_OK and EXPLEN. -/
theorem errorRecordNeverChangesExecution : Obligations.ErrorRecordNeverChangesExecution := by
  intro s t t' w rest cause cmd hport hword hstep hstep'
  have hreads : ∀ i, decode w = .command i → AgreeInReads i s { s with ecause := cause, ecmd := cmd } := fun i hdec =>
    ⟨fun _ => rfl, fun _ => rfl, fun hread => absurd (hread ▸ hdec) hword, fun _ => rfl⟩
  exact ((step_lockstep hport hreads).of_next hstep hstep').eq_but_record rfl rfl rfl

/-- Settles O51: the command goes in lockstep, and the states agreed in all but CRC. -/
theorem crcRegisterHasThreeReaders : Obligations.CrcRegisterHasThreeReaders := by
  intro i s t t' v hupd hrd hsr hexec hexec'
  have hreads : AgreeInReads i s { s with crc := v } := by
    refine ⟨?_, fun _ => rfl, fun _ => ⟨rfl, rfl⟩, fun _ => rfl⟩
    rintro (⟨d, hread⟩ | hread | hread)
    · exact absurd hread (hupd d)
    · exact absurd hread hrd
    · exact absurd hread hsr
  have halike := (Lockstep.exec hreads).of_next hexec hexec'
  exact ⟨halike.eq_but_crc rfl rfl ⟨rfl, rfl⟩, halike.crc⟩

/-- Settles O52: the command goes in lockstep, and the states agreed in all but CRC_OK and EXPLEN. -/
theorem crcOkAndExpLenAreReadByRdSrAlone : Obligations.CrcOkAndExpLenAreReadByRdSrAlone := by
  intro i s t t' ok len hstatus hlen hexec hexec'
  have hreads : AgreeInReads i s { s with crcOk := ok, expLen := len } :=
    ⟨fun _ => rfl, fun hread => absurd hread hstatus, fun _ => ⟨rfl, rfl⟩, fun hread => absurd hread hlen⟩
  have halike := (Lockstep.exec hreads).of_next hexec hexec'
  exact ⟨halike.eq_but_crcOk_expLen rfl ⟨rfl, rfl⟩, halike.crcOk, halike.expLen⟩

end Sys2Proof.Machine

/-!
PROOFS. Memory and byte order (20_memory.md R42 to R46): the value of a pair of bytes, register values through a response, and
that reading is no write.
-/

namespace Sys2Proof.Machine

/-! ## Byte order (20_memory.md R42, R43, R44) -/

/-- The value of two bytes read big-endian (R44): the shifted high byte and the low byte overlap in no bit. -/
theorem ofBe16_toNat (h l : Byte) : (ofBe16 h l).toNat = 256 * h.toNat + l.toNat := by
  have hl : l.toNat < 2 ^ 8 := l.isLt
  have hshift : h.toNat <<< 8 < 2 ^ 16 := by rw [Nat.shiftLeft_eq]; omega
  simp only [ofBe16, BitVec.toNat_or, BitVec.toNat_shiftLeft, BitVec.toNat_setWidth_of_le (by decide : 8 ≤ 16),
    Nat.mod_eq_of_lt hshift, ← Nat.shiftLeft_add_eq_or_of_lt hl]
  rw [Nat.shiftLeft_eq, Nat.mul_comm]

/-- Settles O11: the two byte orders are the definitions, the value of a pair is arithmetic. -/
theorem fieldsAreBigEndianAndTheTrailerIsNot : Obligations.FieldsAreBigEndianAndTheTrailerIsNot :=
  ⟨fun _ => rfl, fun _ => rfl, ofBe16_toNat⟩

/-! ## Register values through a response (20_memory.md R44) -/

@[simp] theorem field16_length (v : Half) : (field16 v).length = 2 := rfl

theorem flatMap_field16_length (values : List Half) : (values.flatMap field16).length = 2 * values.length := by
  simp [Nat.mul_comm]

/-- The `k`-th value stands as the pair of bytes at `2k` and `2k + 1`. -/
theorem getElem?_flatMap_field16 {values : List Half} {k : Nat} {v : Half} (hk : values[k]? = some v) :
    (values.flatMap field16)[2 * k]? = some (hiByte v) ∧ (values.flatMap field16)[2 * k + 1]? = some (loByte v) := by
  induction values generalizing k with
  | nil => simp at hk
  | cons w ws ih =>
    cases k with
    | zero => cases hk; exact ⟨rfl, rfl⟩
    | succ k => exact ih hk

theorem readResponse_length (slave fc count : Byte) (data : List Byte) (x y : Byte) :
    (readResponse slave fc count data x y).length = data.length + 5 := by
  simp [readResponse]

/-- `strip` takes the data out of a read response (42_frame_decode.md R131). -/
theorem strip_readResponse (slave fc count : Byte) (data : List Byte) (x y : Byte) :
    strip (readResponse slave fc count data x y) = data := by
  simp [strip, readResponse]

/-- A read response to the latched request passes the decoders' checks (42_frame_decode.md R130, R133). -/
theorem responseCheck_readResponse {s : State} {count : Byte} {data : List Byte} {x y : Byte} (hvalid : s.reqValid = true)
    (hrx : s.rx = readResponse s.reqSlave s.reqFc count data x y) : s.responseCheck = .ok := by
  rw [responseCheck_request hvalid, hrx]
  cases data <;> simp [readResponse, hdrCheck_long]

/-- `DEC.REGS` on a read response to the latched request with an even number of data bytes (42_frame_decode.md R135). -/
theorem execDecRegs_readResponse {s : State} {count : Byte} {data : List Byte} {x y : Byte} (hvalid : s.reqValid = true)
    (hrx : s.rx = readResponse s.reqSlave s.reqFc count data x y) (heven : data.length % 2 = 0) :
    execDecRegs s = complete .ok (natRes (data.length / 2)) { s with out := data } := by
  have hlen : s.rx.length = data.length + 5 := by rw [hrx, readResponse_length]
  have hstrip : strip s.rx = data := by rw [hrx, strip_readResponse]
  simp [execDecRegs, responseCheck_readResponse hvalid hrx, hlen, hstrip, heven]

/-- `RD.REG` inside the content of OUT (44_buffer_and_system.md R168). -/
theorem execRdReg_of_pair {s : State} {i : Half} {h l : Byte} (hh : s.out[2 * i.toNat]? = some h)
    (hl : s.out[2 * i.toNat + 1]? = some l) : execRdReg i s = complete .ok (zext32 (ofBe16 h l)) s := by
  simp only [execRdReg, hh, hl]

/-- `RD.REG` of a value whose bytes stand in OUT with those of others. -/
theorem execRdReg_of_values {s : State} {values : List Half} {k v : Half} (hout : s.out = values.flatMap field16)
    (hk : values[k.toNat]? = some v) : execRdReg k s = complete .ok (zext32 v) s := by
  obtain ⟨hhi, hlo⟩ := getElem?_flatMap_field16 hk
  rw [execRdReg_of_pair (hout ▸ hhi) (hout ▸ hlo), ofBe16_bytes]

/-- Settles O34: `DEC.REGS` leaves the values' bytes in OUT, where the `k`-th pair reads back as the `k`-th value. -/
theorem registerValuesOfAResponseComeBack : Obligations.RegisterValuesOfAResponseComeBack := by
  intro s values count x y hvalid hrx
  refine ⟨_, execDecRegs_readResponse hvalid hrx (by simp), rfl, by simp [natRes], fun k v hk => ?_, fun k hk => ?_⟩
  · exact execRdReg_of_values rfl hk
  · exact fails_of_exec_eq (execRdReg_of_le ((flatMap_field16_length values).trans_le (by omega)))

/-! ## Which status registers there are (10_state.md R26) -/

/-- The numbers from 10 on are not assigned (10_state.md R26), whatever the state. -/
theorem State.statusReg_of_gt {n : Nat} (h : 9 < n) (s : State) : s.statusReg n = none := by
  obtain ⟨m, rfl⟩ := Nat.exists_eq_add_of_le' (show 10 ≤ n from h)
  rfl

/-- Every number up to 9 is assigned (10_state.md R26). -/
theorem State.statusReg_of_le {n : Nat} (h : n ≤ 9) (s : State) : ∃ v, s.statusReg n = some v := by
  interval_cases n <;> exact ⟨_, rfl⟩

/-- `RD.SR` of an assigned number (44_buffer_and_system.md R169). -/
theorem execRdSr_of_some {s : State} {n : Half} {v : Res} (h : s.statusReg n.toNat = some v) :
    execRdSr n s = complete .ok v s := by
  simp only [execRdSr, h]

/-- `RD.SR` of a number that is not assigned (log 12). -/
theorem execRdSr_of_gt {s : State} {n : Half} (h : 9 < n.toNat) : execRdSr n s = fail .illCmd Op.rdSr.code s := by
  simp only [execRdSr, State.statusReg_of_gt h]

/-! ## Reading is no write (20_memory.md R46) -/

/-- `s` with another first-error record and another trace: what a failing read may write. -/
def State.withRecord (s : State) (cause : BitVec 4) (cmd : Byte) (trace : List Completion) : State :=
  { s with ecause := cause, ecmd := cmd, trace := trace }

/-- Error entry writes the first-error record and the trace at most (60_exceptions.md R192). -/
theorem State.recordError_deliver (s : State) (code : Code) (opcode : Byte) :
    (s.recordError code opcode).deliver code 0 = s.withRecord (s.recordError code opcode).ecause
      (s.recordError code opcode).ecmd (s.trace ++ [{ cc := code, res := 0 }]) := by
  unfold State.recordError
  split <;> rfl

/-- In `s` the command `i` only reads: it completes with one value in every state that differs from `s` in the trace, or
fails with one code in every state that differs from `s` in the trace and the first-error record. -/
def ReadsOnly (i : Instr) (s : State) : Prop :=
  (∃ v, ∀ trace, exec i { s with trace := trace } = complete .ok v { s with trace := trace }) ∨
  (∃ code, code ≠ .ok ∧ ∀ cause cmd trace,
    exec i (s.withRecord cause cmd trace) = fail code i.op.code (s.withRecord cause cmd trace))

namespace ReadsOnly

/-- A command that is the read of one byte of a buffer. -/
theorem of_readByte {i : Instr} {s : State} (buf : Buffer) (k : Half)
    (hexec : ∀ cause cmd trace, exec i (s.withRecord cause cmd trace) =
      readByte buf k i.op.code (s.withRecord cause cmd trace)) : ReadsOnly i s := by
  rcases Nat.lt_or_ge k.toNat buf.length with hk | hk
  · exact .inl ⟨_, fun trace => (hexec s.ecause s.ecmd trace).trans (readByte_of_lt hk _ _)⟩
  · exact .inr ⟨.idx, by decide, fun _ _ _ => (hexec _ _ _).trans (readByte_of_le hk _ _)⟩

theorem rdReg (k : Half) (s : State) : ReadsOnly (.rdReg k) s := by
  rcases Nat.lt_or_ge (2 * k.toNat + 1) s.out.length with hk | hk
  · have hh := List.getElem?_eq_getElem (Nat.lt_of_succ_lt hk)
    have hl := List.getElem?_eq_getElem hk
    exact .inl ⟨_, fun trace => execRdReg_of_pair (s := { s with trace := trace }) hh hl⟩
  · exact .inr ⟨.idx, by decide, fun _ _ _ => execRdReg_of_le hk⟩

/-- No status register holds the trace, and whether a number is assigned depends on no state. -/
theorem rdSr (n : Half) (s : State) : ReadsOnly (.rdSr n) s := by
  rcases Nat.lt_or_ge 9 n.toNat with hn | hn
  · exact .inr ⟨.illCmd, by decide, fun _ _ _ => execRdSr_of_gt hn⟩
  · obtain ⟨v, hv⟩ := State.statusReg_of_le hn s
    exact .inl ⟨v, fun trace => execRdSr_of_some (s := { s with trace := trace }) hv⟩

/-- The five `RD.*` commands only read. -/
theorem of_op {i : Instr} (hop : i.op ∈ [.rdTx, .rdRx, .rdOut, .rdReg, .rdSr]) (s : State) : ReadsOnly i s := by
  cases i with
  | rdTx k => exact of_readByte s.tx k fun _ _ _ => rfl
  | rdRx k => exact of_readByte s.rx k fun _ _ _ => rfl
  | rdOut k => exact of_readByte s.out k fun _ _ _ => rfl
  | rdReg k => exact rdReg k s
  | rdSr n => exact rdSr n s
  | _ => simp [Instr.op] at hop

end ReadsOnly

/-- Settles O55: a command that only reads leaves a state in which it finds the same. -/
theorem readCommandsHaveNoSideEffect : Obligations.ReadCommandsHaveNoSideEffect := by
  intro i s t c hop hexec htrace
  obtain ⟨v, hread⟩ | ⟨code, hcode, hread⟩ := ReadsOnly.of_op hop s
  · obtain rfl : s.deliver .ok v = t := Host.Outcome.next.inj ((hread s.trace).symm.trans hexec)
    obtain rfl : ⟨.ok, v⟩ = c := by simpa using htrace
    exact ⟨fun _ => rfl, rfl, _, hread _, rfl⟩
  · have hfail : fail code i.op.code s = .next t := (hread s.ecause s.ecmd s.trace).symm.trans hexec
    rw [fail_next, State.recordError_deliver] at hfail
    obtain rfl := Host.Outcome.next.inj hfail
    obtain rfl : ⟨code, 0⟩ = c := by simpa [State.withRecord] using htrace
    exact ⟨fun hok => absurd hok hcode, rfl, _, hread _ _ _, by simp⟩

end Sys2Proof.Machine

/-!
PROOFS. The command word (30_encoding.md R70 to R73): which words the decoder takes for a command, and that decoder and encoder
agree. Every proof goes through the four fields of a word and the row its opcode names.
-/

namespace Sys2Proof

/-! ## Fields in two parts (R71: `ENC.RAW` and `ENC.WSC` use a part of a field) -/

/-- A word whose high part is 0 is its low part, widened. -/
theorem zero_append_extractLsb' {m n : Nat} {x : BitVec (m + n)} (h : x.extractLsb' n m = 0) :
    (0 : BitVec m) ++ x.extractLsb' 0 n = x := by
  rw [← h, BitVec.extractLsb'_append_extractLsb']

/-- A mask of the high part tests that part alone. -/
theorem and_allOnes_append_zero {m n : Nat} (x : BitVec (m + n)) :
    x &&& (BitVec.allOnes m ++ (0 : BitVec n)) = 0 ↔ x.extractLsb' n m = 0 := by
  constructor
  · intro h
    simpa [BitVec.extractLsb'_and, BitVec.extractLsb'_append_eq_left] using congrArg (BitVec.extractLsb' n m) h
  · intro h
    rw [← zero_append_extractLsb' h, BitVec.and_append]
    simp

/-- The lowest bit as a word of one bit. -/
theorem ofBool_getLsbD_zero {n : Nat} (x : BitVec n) : BitVec.ofBool (x.getLsbD 0) = x.extractLsb' 0 1 := by
  ext i hi
  simp [show i = 0 by omega]

/-- A word is packed from its fields in one way (R70). -/
theorem packWord_inj {o o' s s' : Byte} {a a' b b' : Half} :
    packWord o s a b = packWord o' s' a' b' ↔ o = o' ∧ s = s' ∧ a = a' ∧ b = b' := by
  constructor
  · intro h
    exact ⟨by simpa using congrArg opField h, by simpa using congrArg sField h, by simpa using congrArg aField h,
      by simpa using congrArg bField h⟩
  · rintro ⟨rfl, rfl, rfl, rfl⟩
    rfl

/-! ## Operand assembly and the encoder undo each other (R71) -/

/-- The assembled instruction belongs to the row. -/
@[simp] theorem op_assemble (op : Op) (s : Byte) (a b : Half) : (assemble op s a b).op = op := by
  cases op <;> rfl

/-- The assembled instruction is well formed unless it names a status register above 9. -/
theorem wellFormed_assemble {op : Op} {s : Byte} {a b : Half} :
    (assemble op s a b).WellFormed = true ↔ (op = .rdSr → a.toNat ≤ 9) := by
  cases op <;> simp [assemble, Instr.WellFormed]

/-- With the reserved bits 0, encoding an assembled instruction packs the fields it was assembled from. -/
theorem encode_assemble {op : Op} {s : Byte} {a b : Half} (h : reservedClear op s a b = true) :
    encode (assemble op s a b) = packWord op.code s a b := by
  cases op with
  | encRc | encRdi | encRhr | encRir | encWsr | encWmr => rfl
  | encRaw =>
    obtain ⟨ha, rfl⟩ : a.extractLsb' 8 8 = 0 ∧ b = 0 := by simpa [reservedClear] using h
    simp only [assemble, encode, zero_append_extractLsb' (m := 8) (n := 8) ha]
  | encWsc =>
    have hb : b.extractLsb' 1 15 = 0 := by simpa [reservedClear] using h
    simp only [assemble, encode, ofBool_getLsbD_zero, zero_append_extractLsb' (m := 15) (n := 1) hb]
  | crcUpd | pushPay | pushRx =>
    obtain ⟨rfl, rfl⟩ : a = 0 ∧ b = 0 := by simpa [reservedClear] using h
    rfl
  | rdTx | rdRx | rdOut | rdReg | rdSr =>
    obtain ⟨rfl, rfl⟩ : s = 0 ∧ b = 0 := by simpa [reservedClear] using h
    rfl
  | nop | crcInit | crcRd | crcFrame | crcChk | decBits | decRegs | decWr | pred | clrPay | clrRx | clrErr | srst =>
    obtain ⟨⟨rfl, rfl⟩, rfl⟩ : (s = 0 ∧ a = 0) ∧ b = 0 := by simpa [reservedClear] using h
    rfl

/-- Every instruction is assembled from some fields with the reserved bits 0. -/
theorem exists_fields (i : Instr) : ∃ s a b, reservedClear i.op s a b = true ∧ assemble i.op s a b = i := by
  cases i with
  | encRc slave addr qty | encRdi slave addr qty | encRhr slave addr qty | encRir slave addr qty
  | encWsr slave addr qty | encWmr slave addr qty => exact ⟨slave, addr, qty, rfl, rfl⟩
  | encRaw slave fc =>
    have hhigh : BitVec.extractLsb' 8 8 ((0 : Byte) ++ fc) = 0 := BitVec.extractLsb'_append_eq_left
    exact ⟨slave, (0 : Byte) ++ fc, 0, by simp only [Instr.op, reservedClear, hhigh]; rfl,
      congrArg (Instr.encRaw slave) BitVec.extractLsb'_append_eq_right⟩
  | encWsc slave coil on => exact ⟨slave, coil, (0 : BitVec 15) ++ BitVec.ofBool on, by cases on <;> rfl, by cases on <;> rfl⟩
  | crcUpd d | pushPay d | pushRx d => exact ⟨d, 0, 0, rfl, rfl⟩
  | rdTx k | rdRx k | rdOut k | rdReg k | rdSr k => exact ⟨0, k, 0, rfl, rfl⟩
  | nop | crcInit | crcRd | crcFrame | crcChk | decBits | decRegs | decWr | pred | clrPay | clrRx | clrErr | srst =>
    exact ⟨0, 0, 0, rfl, rfl⟩

/-! ## What the decoder answers (R72, R73) -/

/-- Fields with the reserved bits 0 and an existing status register decode to the instruction they assemble. -/
theorem decode_packWord_of_clear {op : Op} {s : Byte} {a b : Half} (hclear : reservedClear op s a b = true)
    (hstatus : op = .rdSr → a.toNat ≤ 9) : decode (packWord op.code s a b) = .command (assemble op s a b) := by
  rw [decode_packWord, if_pos hclear, if_neg fun ⟨hsr, hlt⟩ => Nat.not_le_of_gt hlt (hstatus hsr)]

/-- The words the decoder takes for a command of a row, and which one it makes of them. -/
theorem decode_eq_command_iff {w : CmdWord} {i : Instr} :
    decode w = .command i ↔
      ∃ op : Op, op.code = opField w ∧ reservedClear op (sField w) (aField w) (bField w) = true ∧
        (op = .rdSr → (aField w).toNat ≤ 9) ∧ assemble op (sField w) (aField w) (bField w) = i := by
  constructor
  · intro h
    unfold decode at h
    split at h
    · cases h
    · next op hop =>
      split at h
      · next hclear =>
        split at h
        · cases h
        · next hstatus =>
          exact ⟨op, code_of_opOfByte hop, hclear, fun hsr => Nat.le_of_not_lt fun hlt => hstatus ⟨hsr, hlt⟩,
            Decoded.command.inj h⟩
      · cases h
  · rintro ⟨op, hcode, hclear, hstatus, rfl⟩
    rw [← decode_packWord_of_clear hclear hstatus, hcode, packWord_fields]

/-- Settles O4: the instruction is assembled from fields, which its encoding packs and the decoder assembles again. -/
theorem decodeOfEncodeIsTheInstruction : Obligations.DecodeOfEncodeIsTheInstruction := by
  intro i hwf
  obtain ⟨s, a, b, hclear, hi⟩ := exists_fields i
  generalize i.op = op at hclear hi
  subst hi
  rw [encode_assemble hclear, decode_packWord_of_clear hclear (wellFormed_assemble.mp hwf)]

/-- Settles O5: the fields the decoder assembles are packed again. -/
theorem encodeOfDecodeIsTheWord : Obligations.EncodeOfDecodeIsTheWord := by
  intro w i h
  obtain ⟨op, hcode, hclear, hstatus, rfl⟩ := decode_eq_command_iff.mp h
  exact ⟨by rw [encode_assemble hclear, hcode, packWord_fields], wellFormed_assemble.mpr hstatus⟩

/-! ## Masks (R72) -/

/-- The reserved bits of a row, as masks of the fields `s`, `a` and `b` (R71, R72). -/
def Op.reserved : Op → Byte × Half × Half
  | .crcUpd | .pushPay | .pushRx => (0, 0xFFFF, 0xFFFF)
  | .encRaw => (0, 0xFF00, 0xFFFF)
  | .encRc | .encRdi | .encRhr | .encRir | .encWsr | .encWmr => (0, 0, 0)
  | .encWsc => (0, 0, 0xFFFE)
  | .rdTx | .rdRx | .rdOut | .rdReg | .rdSr => (0xFF, 0, 0xFFFF)
  | .nop | .crcInit | .crcRd | .crcFrame | .crcChk | .decBits | .decRegs | .decWr | .pred
  | .clrPay | .clrRx | .clrErr | .srst => (0xFF, 0xFFFF, 0xFFFF)

/-- The printed mask is the opcode and the reserved bits. -/
theorem Op.mask_eq (op : Op) : op.mask = packWord 0xFF op.reserved.1 op.reserved.2.1 op.reserved.2.2 := by
  cases op <;> decide

/-- The printed match value is the opcode alone. -/
theorem Op.matchWord_eq (op : Op) : op.matchWord = packWord op.code 0 0 0 := by
  cases op <;> decide

/-- The decoder's test of the reserved bits is a test under these masks. -/
theorem reservedClear_iff {op : Op} {s : Byte} {a b : Half} :
    reservedClear op s a b = true ↔ s &&& op.reserved.1 = 0 ∧ a &&& op.reserved.2.1 = 0 ∧ b &&& op.reserved.2.2 = 0 := by
  have hzero {n : Nat} (x : BitVec n) : x &&& 0 = 0 := BitVec.and_zero
  have hbyte : s &&& 0xFF = s := BitVec.and_allOnes
  have hhalf (x : Half) : x &&& 0xFFFF = x := BitVec.and_allOnes
  have hhigh : a &&& 0xFF00 = 0 ↔ a.extractLsb' 8 8 = 0 := and_allOnes_append_zero (m := 8) (n := 8) a
  have hupper : b &&& 0xFFFE = 0 ↔ b.extractLsb' 1 15 = 0 := and_allOnes_append_zero (m := 15) (n := 1) b
  cases op with
  | encRc | encRdi | encRhr | encRir | encWsr | encWmr => simp [reservedClear, Op.reserved]
  | encRaw => simp only [reservedClear, Op.reserved, hzero, hhigh, hhalf, Bool.and_eq_true, beq_iff_eq, true_and]
  | encWsc => simp only [reservedClear, Op.reserved, hzero, hupper, beq_iff_eq, true_and]
  | crcUpd | pushPay | pushRx =>
    simp only [reservedClear, Op.reserved, hzero, hhalf, Bool.and_eq_true, beq_iff_eq, true_and]
  | rdTx | rdRx | rdOut | rdReg | rdSr =>
    simp only [reservedClear, Op.reserved, hzero, hbyte, hhalf, Bool.and_eq_true, beq_iff_eq, true_and]
  | nop | crcInit | crcRd | crcFrame | crcChk | decBits | decRegs | decWr | pred | clrPay | clrRx | clrErr | srst =>
    simp only [reservedClear, Op.reserved, hbyte, hhalf, Bool.and_eq_true, beq_iff_eq, and_assoc]

/-- A word matches a row when it has the row's opcode and its reserved bits are 0. -/
theorem and_mask_eq_matchWord_iff {w : CmdWord} {op : Op} :
    w &&& op.mask = op.matchWord ↔ op.code = opField w ∧ reservedClear op (sField w) (aField w) (bField w) = true := by
  have hcode : opField w &&& 0xFF = opField w := BitVec.and_allOnes
  conv_lhs => rw [← packWord_fields w]
  rw [Op.mask_eq, Op.matchWord_eq, Laws.packWord_and, packWord_inj, hcode, reservedClear_iff, eq_comm (a := op.code)]

/-- A word that matches a row has the row's opcode. -/
theorem code_eq_opField_of_match {w : CmdWord} {op : Op} (h : w &&& op.mask = op.matchWord) : op.code = opField w :=
  (and_mask_eq_matchWord_iff.mp h).1

/-- The words that are commands: those that match a row, with a status register that exists for `RD.SR`. -/
theorem exists_command_iff {w : CmdWord} {op : Op} :
    (∃ i, decode w = .command i ∧ i.op = op) ↔
      w &&& op.mask = op.matchWord ∧ (op = .rdSr → (aField w).toNat ≤ 9) := by
  rw [and_mask_eq_matchWord_iff]
  constructor
  · rintro ⟨i, hdec, rfl⟩
    obtain ⟨op, hcode, hclear, hstatus, rfl⟩ := decode_eq_command_iff.mp hdec
    rw [op_assemble]
    exact ⟨⟨hcode, hclear⟩, hstatus⟩
  · rintro ⟨⟨hcode, hclear⟩, hstatus⟩
    exact ⟨_, decode_eq_command_iff.mpr ⟨op, hcode, hclear, hstatus, rfl⟩, op_assemble ..⟩

/-- Settles O3: two rows that a word matches have its opcode, so they are one. -/
theorem wordsSelectRowsByMaskAndMatch : Obligations.WordsSelectRowsByMaskAndMatch := by
  refine fun w => ⟨fun op => exists_command_iff, fun op op' h h' => ?_⟩
  exact Op.code_injective ((code_eq_opField_of_match h).trans (code_eq_opField_of_match h').symm)

/-- A word is illegal when it is no command of any row. -/
theorem exists_illegal_iff {w : CmdWord} :
    (∃ why, decode w = .illegal why) ↔
      ∀ op : Op, w &&& op.mask = op.matchWord → op = .rdSr ∧ 9 < (aField w).toNat := by
  have hcommand : (∃ why, decode w = .illegal why) ↔ ¬ ∃ op i, decode w = .command i ∧ i.op = op := by
    cases decode w <;> simp
  simp only [hcommand, exists_command_iff, not_exists, not_and, Classical.not_imp, not_le]

/-- Which words are illegal (R73). -/
theorem exists_illegal_iff_cases {w : CmdWord} :
    (∃ why, decode w = .illegal why) ↔
      (∀ op : Op, op.code ≠ opField w) ∨ (∃ op : Op, op.code = opField w ∧ w &&& op.mask ≠ op.matchWord) ∨
      (opField w = Op.rdSr.code ∧ 9 < (aField w).toNat) := by
  rw [exists_illegal_iff]
  constructor
  · intro h
    by_cases hassigned : ∃ op : Op, op.code = opField w
    · obtain ⟨op, hop⟩ := hassigned
      by_cases hmatch : w &&& op.mask = op.matchWord
      · obtain ⟨rfl, hstatus⟩ := h op hmatch
        exact .inr (.inr ⟨hop.symm, hstatus⟩)
      · exact .inr (.inl ⟨op, hop, hmatch⟩)
    · exact .inl (not_exists.mp hassigned)
  · intro h op hmatch
    have hop := code_eq_opField_of_match hmatch
    obtain hunassigned | ⟨op', hop', hreserved⟩ | ⟨hsr, hstatus⟩ := h
    · exact absurd hop (hunassigned op)
    · exact absurd hmatch (Op.code_injective (hop'.trans hop.symm) ▸ hreserved)
    · exact ⟨Op.code_injective (hop.trans hsr), hstatus⟩

/-- Settles O2: R73's cases, and an illegal word is error entry with its top byte. -/
theorem illegalWordsFailAndChangeNothingElse : Obligations.IllegalWordsFailAndChangeNothingElse := by
  refine ⟨fun w => exists_illegal_iff_cases, fun s w rest why hport hdec => ?_⟩
  rw [Machine.step_illegal hport hdec]
  exact Machine.fail_failedAs .illCmd (opField w) _

/-- Settles O6: the decoder evaluates on each of the words. -/
theorem wordsOfTheSpecDecodeAsNamed : Obligations.WordsOfTheSpecDecodeAsNamed := by
  unfold Obligations.WordsOfTheSpecDecodeAsNamed
  decide

end Sys2Proof

/-!
PROOFS. Runs of the pseudo-commands (30_encoding.md R75): a run of presented commands is put together from its commands and its
parts, and loading a buffer is one argument for PAY and RX.
-/

namespace Sys2Proof.Machine

/-! ## Runs of presented commands -/

/-- In `s` the command leads to `t`, whatever else the host has presented, which stays. -/
def Leads (i : Instr) (s t : State) : Prop :=
  ∀ port : List HostInput, exec i { s with port := port } = .next { t with port := port }

/-- From `s` the commands, presented in order before any further inputs, lead to `t` in one step each; only those inputs are
left. -/
def Runs (is : List Instr) (s t : State) : Prop :=
  ∀ rest : List HostInput,
    Host.Core.run Sys2Proof.core is.length { s with port := presented is ++ rest } = .next { t with port := rest }

namespace Runs

theorem nil (s : State) : Runs [] s s := fun _ => run_zero Sys2Proof.core _

/-- A command before a run: its word decodes to it (R72), so the step executes it. -/
theorem cons {i : Instr} {is : List Instr} {s t u : State} (hwf : i.WellFormed = true) (hi : Leads i s t)
    (his : Runs is t u) : Runs (i :: is) s u := by
  intro rest
  have hstep : step { s with port := presented (i :: is) ++ rest } = .next { t with port := presented is ++ rest } :=
    (step_command rfl (decodeOfEncodeIsTheInstruction i hwf)).trans (hi (presented is ++ rest))
  exact (run_succ hstep is.length).trans (his rest)

/-- A run of one command. -/
theorem single {i : Instr} {s t : State} (hwf : i.WellFormed = true) (hi : Leads i s t) : Runs [i] s t :=
  cons hwf hi (nil t)

/-- Two runs in a row. -/
theorem append {is js : List Instr} {s t u : State} (his : Runs is s t) (hjs : Runs js t u) : Runs (is ++ js) s u := by
  intro rest
  have hpresented : presented (is ++ js) ++ rest = presented is ++ (presented js ++ rest) := by
    simp [presented]
  rw [hpresented, List.length_append]
  exact (run_add is.length js.length (his (presented js ++ rest))).trans (hjs rest)

/-- The run that a statement writes out, with its number of steps. -/
theorem run {is : List Instr} {s t : State} (h : Runs is s t) {n : Nat} (hn : is.length = n) (rest : List HostInput) :
    Host.Core.run Sys2Proof.core n { s with port := presented is ++ rest } = .next { t with port := rest } :=
  hn ▸ h rest

end Runs

/-! ## Loading a buffer (R75, 44_buffer_and_system.md R161 to R164) -/

/-- The records of `n` pushes into a buffer of `start` bytes: each returns the new length. -/
def pushRecords (start n : Nat) : List Completion :=
  (List.range n).map (fun k => { cc := .ok, res := natRes (start + k + 1) })

/-- The record of the first push comes before those of the others. -/
theorem pushRecords_succ (start n : Nat) :
    pushRecords start (n + 1) = { cc := .ok, res := natRes (start + 1) } :: pushRecords (start + 1) n := by
  simp [pushRecords, List.range_succ_eq_map, Nat.add_assoc, Nat.add_comm 1]

/-- `push` appends a byte to the buffer that `held` shows, while it is not full. -/
def Pushes (push : Byte → Instr) (held : Buffer → List Completion → State) (capacity : Nat) : Prop :=
  ∀ (d : Byte) (buf : Buffer) (trace : List Completion), buf.length < capacity →
    Leads (push d) (held buf trace) (held (buf ++ [d]) (trace ++ [{ cc := .ok, res := natRes (buf.length + 1) }]))

/-- Pushing bytes that fit, by induction on the bytes. -/
theorem Pushes.runs {push : Byte → Instr} {held : Buffer → List Completion → State} {capacity : Nat}
    (hpush : Pushes push held capacity) (hwf : ∀ d, (push d).WellFormed = true) (bytes : List Byte) (buf : Buffer)
    (trace : List Completion) (hfit : buf.length + bytes.length ≤ capacity) :
    Runs (bytes.map push) (held buf trace) (held (buf ++ bytes) (trace ++ pushRecords buf.length bytes.length)) := by
  induction bytes generalizing buf trace with
  | nil => simpa [pushRecords] using Runs.nil (held buf trace)
  | cons d bytes ih =>
    rw [List.length_cons] at hfit
    have hrest := ih (buf ++ [d]) (trace ++ [{ cc := .ok, res := natRes (buf.length + 1) }]) (by simp; omega)
    simpa [pushRecords_succ] using Runs.cons (hwf d) (hpush d buf trace (by omega)) hrest

/-- The records of loading `n` bytes: of the clearing command, then of the pushes. -/
def loadRecords (n : Nat) : List Completion := { cc := .ok, res := 0 } :: pushRecords 0 n

/-- Loading bytes that fit: a command that empties the buffer, then the pushes. -/
theorem Pushes.runs_after_clear {push : Byte → Instr} {held : Buffer → List Completion → State} {capacity : Nat}
    (hpush : Pushes push held capacity) (hwf : ∀ d, (push d).WellFormed = true) {clear : Instr} {s : State}
    (hwfClear : clear.WellFormed = true) (hclear : Leads clear s (held [] (s.trace ++ [{ cc := .ok, res := 0 }])))
    {bytes : List Byte} (hfit : bytes.length ≤ capacity) :
    Runs (clear :: bytes.map push) s (held bytes (s.trace ++ loadRecords bytes.length)) := by
  have hpushes := hpush.runs hwf bytes [] (s.trace ++ [{ cc := .ok, res := 0 }]) (by simpa using hfit)
  simpa [loadRecords] using Runs.cons hwfClear hclear hpushes

/-- `s` with the given PAY and records. -/
def State.withPay (s : State) (pay : Buffer) (trace : List Completion) : State := { s with pay := pay, trace := trace }

/-- `s` with the given RX and records, CRC_OK withdrawn. -/
def State.withRx (s : State) (rx : Buffer) (trace : List Completion) : State :=
  { s with rx := rx, crcOk := false, trace := trace }

theorem pushPay_pushes (s : State) : Pushes .pushPay s.withPay s.cfg.bufBytes :=
  fun _ _ _ hlt _ => if_neg (Nat.ne_of_lt hlt)

theorem pushRx_pushes (s : State) : Pushes .pushRx s.withRx s.cfg.bufBytes :=
  fun _ _ _ hlt _ => if_neg (Nat.ne_of_lt hlt)

/-- `LOAD.PAY` leaves its operands in PAY. -/
theorem loadPay_runs (s : State) {bytes : List Byte} (hfit : bytes.length ≤ s.cfg.bufBytes) :
    Runs (loadPay bytes) s (s.withPay bytes (s.trace ++ loadRecords bytes.length)) :=
  (pushPay_pushes s).runs_after_clear (fun _ => rfl) rfl (fun _ => rfl) hfit

/-- `LOAD.RX` leaves its operands in RX. -/
theorem loadRx_runs (s : State) {bytes : List Byte} (hfit : bytes.length ≤ s.cfg.bufBytes) :
    Runs (loadRx bytes) s (s.withRx bytes (s.trace ++ loadRecords bytes.length)) :=
  (pushRx_pushes s).runs_after_clear (fun _ => rfl) rfl (fun _ => rfl) hfit

/-- The records as the statement lists them. -/
theorem loadRecords_eq (n : Nat) :
    loadRecords n =
      { cc := .ok, res := 0 } :: (List.range n).map (fun k => { cc := .ok, res := BitVec.ofNat 32 (k + 1) }) := by
  simp [loadRecords, pushRecords, natRes]

/-- Settles O46: the runs of the two loads. -/
theorem loadingReplacesTheBuffer : Obligations.LoadingReplacesTheBuffer := by
  intro s bytes rest hfit
  rw [← loadRecords_eq]
  exact ⟨(loadPay_runs s hfit).run (by simp [loadPay]) rest, (loadRx_runs s hfit).run (by simp [loadRx]) rest⟩

/-! ## The CRC streamed and framed (R75, 40_crc_engine.md R84 to R87) -/

/-- Streaming bytes folds them into CRC, by induction on the bytes. -/
theorem crcUpd_runs (bytes : List Byte) (s : State) :
    ∃ trace, Runs (bytes.map .crcUpd) s { s with crc := bytes.foldl crcStep s.crc, trace := trace } := by
  induction bytes generalizing s with
  | nil => exact ⟨s.trace, Runs.nil s⟩
  | cons d bytes ih =>
    obtain ⟨trace, hrest⟩ := ih ({ s with crc := crcStep s.crc d }.deliver .ok (zext32 (crcStep s.crc d)))
    exact ⟨trace, Runs.cons rfl (fun _ => rfl) hrest⟩

/-- `CRC.STREAM` leaves the CRC of its operands in CRC and returns it last. -/
theorem crcStream_runs (s : State) (bytes : List Byte) :
    ∃ trace, Runs (crcStream bytes) s
      { s with crc := crc16 bytes, trace := trace ++ [{ cc := .ok, res := zext32 (crc16 bytes) }] } := by
  obtain ⟨trace, hupd⟩ := crcUpd_runs bytes ({ s with crc := Config.crcSeed }.deliver .ok 0)
  have hinit : Leads .crcInit s ({ s with crc := Config.crcSeed }.deliver .ok 0) := fun _ => rfl
  exact ⟨trace, (Runs.cons rfl hinit hupd).append (Runs.single rfl fun _ => rfl)⟩

/-- `CRC.FRAME` where PAY and its trailer fit (R87). -/
theorem leads_crcFrame {s : State} (hfit : s.pay.length + 2 ≤ s.cfg.bufBytes) :
    Leads .crcFrame s ({ s.clearRequest with crc := crc16 s.pay, tx := crcAppend s.pay }.deliver .ok
      (natRes (crcAppend s.pay).length)) :=
  fun _ => if_neg (Nat.not_lt_of_le hfit)

/-- `CRC16` leaves the CRC of its operands in CRC and the operands with it in TX. -/
theorem crc16Macro_runs (s : State) {bytes : List Byte} (hfit : bytes.length + 2 ≤ s.cfg.bufBytes) :
    ∃ u, Runs (crc16Macro bytes) s u ∧ u.crc = crc16 bytes ∧ u.tx = crcAppend bytes :=
  ⟨_, (loadPay_runs s (Nat.le_of_add_right_le hfit)).append (Runs.single rfl (leads_crcFrame hfit)), rfl, rfl⟩

/-- Settles O22: the runs of the two macros. -/
theorem streamedCrcEqualsFramedCrc : Obligations.StreamedCrcEqualsFramedCrc := by
  intro s bytes rest
  obtain ⟨trace, hstream⟩ := crcStream_runs s bytes
  refine ⟨_, hstream.run (by simp [crcStream]) rest, rfl, rfl, List.getLast?_concat .., fun hfit => ?_⟩
  obtain ⟨u, hmacro, hcrc, htx⟩ := crc16Macro_runs s hfit
  exact ⟨_, hmacro.run (by simp [crc16Macro, loadPay]) rest, rfl, hcrc, htx⟩

end Sys2Proof.Machine

/-!
PROOFS. The CRC engine (40_crc_engine.md R80 to R88): one bit iteration loses nothing, since it moves the bit it shifts out to
bit 15; iterations that shift out zeros only are a right shift; and CRC_OK says that a frame ends in its trailer.
-/

namespace Sys2Proof.Machine

/-! ## Pinned values (R80 to R83) -/

/-- Settles O12: the functions evaluate on each of the vectors. -/
theorem crcMeetsThePinnedVectors : Obligations.CrcMeetsThePinnedVectors := by
  unfold Obligations.CrcMeetsThePinnedVectors
  decide +kernel

/-! ## `crc_step` permutes the register (R80, R83 (a)) -/

/-- The bit that an iteration shifts out comes in at bit 15, the top bit of the polynomial. -/
theorem crcShift_getLsbD_fifteen (r : Half) : (crcShift r).getLsbD 15 = r.getLsbD 0 := by
  unfold crcShift
  split <;> simp_all [Config.crcPoly]

/-- An iteration can be undone: its bit 15 gives the bit shifted out, and with it whether the polynomial was added. -/
theorem crcShift_injective : Function.Injective crcShift := by
  intro r r' h
  have hlow : r.getLsbD 0 = r'.getLsbD 0 := by
    rw [← crcShift_getLsbD_fifteen, h, crcShift_getLsbD_fifteen]
  have hrest : r >>> 1 = r' >>> 1 := by
    unfold crcShift at h
    rw [hlow] at h
    split at h
    · exact (BitVec.xor_left_inj _).mp h
    · exact h
  apply BitVec.eq_of_getLsbD_eq
  intro i _
  cases i with
  | zero => exact hlow
  | succ i => simpa [Nat.add_comm 1] using congrArg (·.getLsbD i) hrest

theorem crcShifts_injective (n : Nat) : Function.Injective (crcShifts n) := by
  induction n with
  | zero => exact fun _ _ h => h
  | succ n ih => exact ih.comp crcShift_injective

theorem crcStep_left_injective (d : Byte) : Function.Injective (fun r => crcStep r d) :=
  fun _ _ h => (BitVec.xor_left_inj _).mp (crcShifts_injective 8 h)

theorem crcStep_right_injective (r : Half) : Function.Injective (crcStep r) := by
  intro x y h
  have hwide : x.setWidth 16 = y.setWidth 16 := (BitVec.xor_right_inj r).mp (crcShifts_injective 8 h)
  simpa using congrArg (BitVec.setWidth 8) hwide

/-- The CRC of a message goes on from the CRC of its first part (R81). -/
theorem crc16_append (xs ys : List Byte) : crc16 (xs ++ ys) = ys.foldl crcStep (crc16 xs) := List.foldl_append

/-- Settles O13: on the finite register an injective step is bijective. -/
theorem crcStepIsABijectionOnTheRegister : Obligations.CrcStepIsABijectionOnTheRegister :=
  ⟨fun d => (crcStep_left_injective d).bijective_of_finite, fun data d => crc16_append data [d]⟩

/-- Folding the same bytes keeps different registers different. -/
theorem foldl_crcStep_injective (data : List Byte) : Function.Injective (fun r => data.foldl crcStep r) := by
  induction data with
  | nil => exact fun _ _ h => h
  | cons d data ih => exact ih.comp (crcStep_left_injective d)

/-- Settles O15: the registers differ after the byte in which the messages differ, and stay different. -/
theorem crcTellsApartMessagesDifferingInOneByte : Obligations.CrcTellsApartMessagesDifferingInOneByte := by
  intro before after x y hne h
  rw [crc16_append, crc16_append] at h
  exact hne (crcStep_right_injective (crc16 before) (foldl_crcStep_injective after h))

/-! ## The zero residue (R83 (b)) -/

/-- Iterations that shift out zeros only never add the polynomial. -/
theorem crcShifts_eq_ushiftRight {n : Nat} {r : Half} (h : ∀ i < n, r.getLsbD i = false) : crcShifts n r = r >>> n := by
  induction n generalizing r with
  | zero => rfl
  | succ n ih =>
    have hshift : crcShift r = r >>> 1 := if_neg (Bool.eq_false_iff.mp (h 0 n.succ_pos))
    have hlow : ∀ i < n, (r >>> 1).getLsbD i = false := fun i hi => by
      rw [BitVec.getLsbD_ushiftRight]
      exact h (1 + i) (by omega)
    rw [crcShifts, hshift, ih hlow, ← BitVec.shiftRight_add, Nat.add_comm]

/-- Folding the register's own low byte leaves its high byte. -/
theorem crcStep_loByte (c : Half) : crcStep c (loByte c) = (hiByte c).setWidth 16 := by
  have hlow : ∀ i < 8, (c ^^^ (loByte c).setWidth 16).getLsbD i = false := by
    intro i hi
    simp [loByte, hi, show i < 16 by omega]
  rw [crcStep, crcShifts_eq_ushiftRight hlow]
  ext i hi
  have hrange (hbit : c.getLsbD (8 + i) = true) : i < 8 := by
    have := BitVec.lt_of_getLsbD hbit
    omega
  simpa [loByte, hiByte] using hrange

/-- Folding the one byte that a register holds leaves 0. -/
theorem crcStep_setWidth_self (d : Byte) : crcStep (d.setWidth 16) d = 0 := by
  rw [crcStep, BitVec.xor_self, crcShifts_eq_ushiftRight (by simp)]
  exact BitVec.zero_ushiftRight

/-- Settles O14: of the trailer, the low byte leaves the high byte in the register, and the high byte then leaves 0. -/
theorem crcOfAFrameWithItsTrailerIsZero : Obligations.CrcOfAFrameWithItsTrailerIsZero := by
  intro data
  calc crc16 (crcAppend data)
      = crcStep (crcStep (crc16 data) (loByte (crc16 data))) (hiByte (crc16 data)) := crc16_append data _
    _ = crcStep ((hiByte (crc16 data)).setWidth 16) (hiByte (crc16 data)) := by rw [crcStep_loByte]
    _ = 0 := crcStep_setWidth_self _

/-! ## CRC_OK (R88, R82) -/

section
variable {data trailer : List Byte} (h : trailer.length = 2)
include h

theorem checkedCrc_append : checkedCrc (data ++ trailer) = crc16 data := by
  simp [checkedCrc, h]

/-- CRC_OK compares the last two bytes with the trailer of the CRC of the bytes before them. -/
theorem crcOkFlag_append : crcOkFlag (data ++ trailer) = (trailer == crcTrailer (crc16 data)) := by
  simp [crcOkFlag, checkedCrc_append h, h]

end

theorem crcOkFlag_of_short {frame : List Byte} (h : frame.length < 2) : crcOkFlag frame = false := by
  simp [crcOkFlag, Nat.not_le_of_lt h]

/-- A frame with CRC_OK is the data before its last two bytes with the CRC of that data appended. -/
theorem crcOkFlag_iff {frame : List Byte} : crcOkFlag frame = true ↔ ∃ data, frame = crcAppend data := by
  constructor
  · intro h
    obtain ⟨-, htrailer⟩ : 2 ≤ frame.length ∧ frame.drop (frame.length - 2) = crcTrailer (checkedCrc frame) := by
      simpa [crcOkFlag] using h
    refine ⟨frame.take (frame.length - 2), ?_⟩
    rw [crcAppend, ← checkedCrc, ← htrailer, List.take_append_drop]
  · rintro ⟨data, rfl⟩
    rw [crcAppend, crcOkFlag_append rfl, beq_self_eq_true]

/-- `CRC.CHK` writes the flag on both of its paths. -/
theorem execCrcChk_crcOk (s : State) : Ends (fun t => t.crcOk = crcOkFlag s.rx) (execCrcChk s) :=
  .ite (fun hshort => ⟨_, rfl, (crcOkFlag_of_short hshort).symm⟩) (fun _ => ⟨_, rfl, rfl⟩)

/-- Settles O21: the flag that `CRC.CHK` writes says so. -/
theorem crcOkMeansRxIsDataWithItsCrc : Obligations.CrcOkMeansRxIsDataWithItsCrc := by
  intro s
  obtain ⟨t, hexec, hok⟩ := execCrcChk_crcOk s
  exact ⟨t, hexec, hok ▸ crcOkFlag_iff⟩

/-! ## The commands (R84 to R88) -/

/-- Settles O16: the command completes in the state with the seed. -/
theorem crcInitLoadsTheSeed : Obligations.CrcInitLoadsTheSeed :=
  ⟨decodeOfEncodeIsTheInstruction .crcInit rfl, fun _ => rfl⟩

/-- Settles O17: the command completes, with the new register, in the state that holds it. -/
theorem crcUpdFoldsOneByte : Obligations.CrcUpdFoldsOneByte :=
  ⟨fun d => decodeOfEncodeIsTheInstruction (.crcUpd d) rfl, fun _ _ => rfl⟩

/-- Settles O18: the command completes in the state as it is. -/
theorem crcRdReturnsTheRegister : Obligations.CrcRdReturnsTheRegister :=
  ⟨decodeOfEncodeIsTheInstruction .crcRd rfl, fun _ => rfl⟩

/-- Settles O19: the two paths, by whether PAY and its trailer fit. -/
theorem crcFrameAppendsTheTrailerOrOverflows : Obligations.CrcFrameAppendsTheTrailerOrOverflows := by
  refine ⟨decodeOfEncodeIsTheInstruction .crcFrame rfl, fun s => ⟨fun hfit => ?_, fun hover => ?_⟩⟩
  · rw [← crcAppend_length]
    exact leads_crcFrame hfit s.port
  · exact fails_of_exec_eq (if_pos hover)

/-- `CRC.CHK` on two bytes and more (R88). -/
theorem execCrcChk_append {s : State} {data trailer : List Byte} (hlen : trailer.length = 2) (hrx : s.rx = data ++ trailer) :
    execCrcChk s =
      complete .ok (zext32 (BitVec.ofBool (trailer == crcTrailer (crc16 data))))
        { s with crc := crc16 data, crcOk := trailer == crcTrailer (crc16 data) } := by
  have hlong : ¬ s.rx.length < 2 := by simp [hrx, hlen]
  rw [execCrcChk, if_neg hlong, hrx, checkedCrc_append hlen, crcOkFlag_append hlen]

/-- Settles O20: RX below two bytes, and RX with a trailer that matches or does not. -/
theorem crcChkComparesTheTrailer : Obligations.CrcChkComparesTheTrailer := by
  refine ⟨decodeOfEncodeIsTheInstruction .crcChk rfl, fun s => ⟨fun hshort => if_pos hshort, ?_, ?_⟩⟩
  · intro data x y hrx heq
    have hmatch : ([x, y] == crcTrailer (crc16 data)) = true := by
      simpa [crcTrailer, loByte, hiByte] using heq
    exact (execCrcChk_append rfl hrx).trans (by rw [hmatch]; rfl)
  · intro data x y hrx hne
    have hmismatch : ([x, y] == crcTrailer (crc16 data)) = false := by
      simpa [crcTrailer, loByte, hiByte] using hne
    exact (execCrcChk_append rfl hrx).trans (by rw [hmismatch]; rfl)

end Sys2Proof.Machine

/-!
PROOFS. Request framing (41_frame_encode.md R100 to R112): an encoder leaves a frame or rejects, in the terms of the statements;
what it leaves depends on the parameters and PAY alone; and after a rejection there is nothing to send and no response to decode.
-/

namespace Sys2Proof.Machine

/-! ## The two paths of an encoder (R101, R102) -/

/-- The success path leaves the frame as the rules list it (R101). -/
theorem emit_eq_framed (slave fc : Byte) (payload : List Byte) (s : State) :
    emit slave fc payload s = .next (framed slave fc payload s) := emit_next slave fc payload s

/-- A command on the failure path of the encoders fails without frame and request (R102). -/
theorem fails_of_exec_eq_reject {i : Instr} {s : State} {code : Code} {opcode : Byte}
    (h : exec i s = reject code opcode s) : Fails i s code opcode (unframed s) :=
  fails_of_exec_eq (h.trans (reject_eq code opcode s))

/-! ## What a frame depends on (R111) -/

/-- The results from `s` and from `s'` hold the same frame, or the same rejection. -/
inductive SameRequest (s s' : State) : Result → Result → Prop
  | framed (slave fc : Byte) (payload : List Byte) :
    SameRequest s s' (.next (framed slave fc payload s)) (.next (framed slave fc payload s'))
  | rejected (code : Code) (opcode : Byte) :
    SameRequest s s' (.next (((unframed s).recordError code opcode).deliver code 0))
      (.next (((unframed s').recordError code opcode).deliver code 0))

namespace SameRequest

variable {s s' : State}

theorem emit (slave fc : Byte) (payload : List Byte) :
    SameRequest s s' (emit slave fc payload s) (emit slave fc payload s') := by
  rw [emit_eq_framed, emit_eq_framed]
  exact .framed slave fc payload

theorem reject (code : Code) (opcode : Byte) : SameRequest s s' (reject code opcode s) (reject code opcode s') :=
  .rejected code opcode

/-- A choice made on what both states agree in. -/
theorem ite {p : Prop} [Decidable p] {r₁ r₁' r₂ r₂' : Result} (h₁ : SameRequest s s' r₁ r₁')
    (h₂ : SameRequest s s' r₂ r₂') : SameRequest s s' (if p then r₁ else r₂) (if p then r₁' else r₂') := by
  split
  · exact h₁
  · exact h₂

/-- An encoder reads the parameters and PAY, so states that agree in these get the same request. -/
theorem exec {i : Instr} (henc : isEncoder i.op = true) (hcfg : s.cfg = s'.cfg) (hpay : s.pay = s'.pay) :
    SameRequest s s' (exec i s) (exec i s') := by
  cases i with
  | encRaw slave fc =>
    simp only [Machine.exec, execEncRaw, hcfg, hpay]
    exact .ite (reject _ _) (emit _ _ _)
  | encRc | encRdi | encRhr | encRir | encWsc | encWsr =>
    simp only [Machine.exec, execEncRc, execEncRdi, execEncRhr, execEncRir, execEncWsc, execEncWsr, hcfg]
    exact emit _ _ _
  | encWmr slave addr qty =>
    simp only [Machine.exec, execEncWmr, hcfg, hpay]
    exact .ite (reject _ _) (.ite (reject _ _) (.ite (reject _ _) (emit _ _ _)))
  | _ => simp [Instr.op, isEncoder] at henc

end SameRequest

/-- Settles O28: the same frame, or the same rejection, leaves the same TX, latch and record. -/
theorem encodingTwiceGivesTheSameFrame : Obligations.EncodingTwiceGivesTheSameFrame := by
  intro i s s' t t' henc hcfg hpay hexec hexec'
  have hsame := SameRequest.exec henc hcfg hpay
  rw [hexec, hexec'] at hsame
  cases hsame with
  | framed slave fc payload => exact ⟨rfl, rfl, rfl, rfl, _, rfl, rfl⟩
  | rejected code opcode => simp [unframed]

/-! ## After a failing frame builder (R102, R87, R133) -/

/-- No frame to send, no request to decode a response for, and CRC as it was in `s`. -/
def NothingToSend (s t : State) : Prop := t.tx = [] ∧ t.reqValid = false ∧ t.crc = s.crc

/-- The state a frame builder fails in has nothing to send, and error entry leaves it so. -/
theorem nothingToSend_rejected (s : State) (code : Code) (opcode : Byte) :
    NothingToSend s (((unframed s).recordError code opcode).deliver code 0) := by
  simp [NothingToSend, unframed]

/-- An encoder or `CRC.FRAME` that completes with another code than `OK` leaves nothing to send. -/
theorem nothingToSend_of_failure {i : Instr} {s t : State} {c : Completion} (hi : isEncoder i.op = true ∨ i = .crcFrame)
    (hexec : exec i s = .next t) (htrace : t.trace = s.trace ++ [c]) (hc : c.cc ≠ .ok) : NothingToSend s t := by
  have hnotOk (res : Res) (hok : t.trace = s.trace ++ [⟨.ok, res⟩]) : NothingToSend s t := by
    obtain rfl : c = ⟨.ok, res⟩ := by simpa [hok] using htrace.symm
    exact absurd rfl hc
  obtain henc | rfl := hi
  · have hsame := SameRequest.exec (s := s) (s' := s) henc rfl rfl
    rw [hexec] at hsame
    cases hsame with
    | framed slave fc payload => exact hnotOk _ rfl
    | rejected code opcode => exact nothingToSend_rejected s code opcode
  · obtain hover | hfit := Nat.lt_or_ge s.cfg.bufBytes (s.pay.length + 2)
    · have hfail : exec .crcFrame s = fail .ovf Op.crcFrame.code (unframed s) := if_pos hover
      cases hexec.symm.trans hfail
      exact nothingToSend_rejected s .ovf _
    · cases hexec.symm.trans (leads_crcFrame hfit s.port)
      exact hnotOk _ rfl

/-- A decoder goes no further than its common checks when these refuse the response (42_frame_decode.md R133). -/
theorem rejectResponse_of_refused {s : State} {code : Code} (hcheck : s.responseCheck = code) (hcode : code ≠ .ok)
    (opcode : Byte) (accepted : Result) :
    (if s.responseCheck ≠ .ok then rejectResponse s.responseCheck opcode s else accepted) =
      fail code opcode { s with out := [] } := by
  rw [if_pos (hcheck ▸ hcode), hcheck, rejectResponse_eq]

/-- Settles O29: what a failing frame builder leaves has no byte to read and no request to decode for. -/
theorem failedFrameBuilderLeavesNothingToSend : Obligations.FailedFrameBuilderLeavesNothingToSend := by
  intro i s t c hi hexec htrace hc
  obtain ⟨htx, hvalid, hcrc⟩ := nothingToSend_of_failure hi hexec htrace hc
  have hrefused := rejectResponse_of_refused (responseCheck_noRequest hvalid) (by decide)
  refine ⟨htx, hvalid, hcrc, fun k => fails_of_exec_eq (readByte_of_le (by simp [htx]) _ t), ?_, ?_, ?_⟩
  · exact fails_of_exec_eq (hrefused Op.decBits.code _)
  · exact fails_of_exec_eq (hrefused Op.decRegs.code _)
  · exact fails_of_exec_eq (hrefused Op.decWr.code _)

/-! ## The commands (R103 to R110) -/

/-- Settles O23: the two paths, by whether PAY fits the frame. -/
theorem encRawFramesThePayloadOrOverflows : Obligations.EncRawFramesThePayloadOrOverflows := by
  refine ⟨fun slave fc => decodeOfEncodeIsTheInstruction (.encRaw slave fc) rfl,
    fun s slave fc => ⟨fun hfit => ?_, fun hover => ?_⟩⟩
  · exact (if_neg (Nat.not_lt_of_le hfit)).trans (emit_eq_framed slave fc s.pay s)
  · exact fails_of_exec_eq_reject (if_pos hover)

/-- Settles O24: each of the four frames its function code and the two fields. -/
theorem readRequestsAreFramed : Obligations.ReadRequestsAreFramed := fun _ slave addr qty =>
  ⟨decodeOfEncodeIsTheInstruction (.encRc slave addr qty) rfl, decodeOfEncodeIsTheInstruction (.encRdi slave addr qty) rfl,
    decodeOfEncodeIsTheInstruction (.encRhr slave addr qty) rfl, decodeOfEncodeIsTheInstruction (.encRir slave addr qty) rfl,
    emit_eq_framed .., emit_eq_framed .., emit_eq_framed .., emit_eq_framed ..⟩

/-- The reserved bits of `ENC.WSC` leave `b` the values 0 and 1 (30_encoding.md R71). -/
theorem coil_field_of_clear {slave : Byte} {coil b : Half} (hclear : reservedClear .encWsc slave coil b = true) :
    b = 1 ∨ b = 0 := by
  have hupper : b.extractLsb' 1 15 = 0 := by simpa [reservedClear] using hclear
  rw [← zero_append_extractLsb' (m := 15) (n := 1) hupper, ← ofBool_getLsbD_zero]
  cases b.getLsbD 0
  · exact .inr rfl
  · exact .inl rfl

/-- Settles O25: both coil states are framed, and the decoder takes no word for another one. -/
theorem writeSingleCoilIsFramed : Obligations.WriteSingleCoilIsFramed := by
  intro s slave coil
  refine ⟨decodeOfEncodeIsTheInstruction (.encWsc slave coil true) rfl,
    decodeOfEncodeIsTheInstruction (.encWsc slave coil false) rfl, emit_eq_framed .., emit_eq_framed .., fun b hon hoff => ?_⟩
  have hreserved : ¬ reservedClear .encWsc slave coil b = true := fun hclear =>
    (coil_field_of_clear hclear).elim hon hoff
  exact (decode_packWord .encWsc slave coil b).trans (if_neg hreserved)

/-- Settles O26: the register address and the value are the two fields. -/
theorem writeSingleRegisterIsFramed : Obligations.WriteSingleRegisterIsFramed := fun _ slave reg value =>
  ⟨decodeOfEncodeIsTheInstruction (.encWsr slave reg value) rfl, emit_eq_framed ..⟩

/-- Settles O27: the command makes the choices of the statement in the same order. -/
theorem writeMultipleRegistersIsValidatedAndFramed : Obligations.WriteMultipleRegistersIsValidatedAndFramed := by
  refine ⟨fun slave addr qty => decodeOfEncodeIsTheInstruction (.encWmr slave addr qty) rfl, fun s slave addr qty => ?_⟩
  split
  · next hslave => exact fails_of_exec_eq_reject (if_pos hslave)
  · next hslave =>
    split
    · next hqty => exact fails_of_exec_eq_reject ((if_neg hslave).trans (if_pos hqty))
    · next hqty =>
      split
      · next hlen => exact fails_of_exec_eq_reject ((if_neg hslave).trans ((if_neg hqty).trans (if_pos hlen)))
      · next hlen => exact (if_neg hslave).trans ((if_neg hqty).trans ((if_neg hlen).trans (emit_eq_framed ..)))

end Sys2Proof.Machine

/-!
PROOFS. Response decode (42_frame_decode.md R130 to R137): the decoders' common check answers as the rules list its failures; a
refused response goes no further in any decoder, and an accepted one meets that decoder's own checks.
-/

namespace Sys2Proof.Machine

/-! ## The common check (R130, R133) -/

/-- `hdr_check` in the order of its rule, over byte indices (R130). -/
theorem hdrCheck_eq_ite (resp : List Byte) (slave fc : Byte) :
    hdrCheck resp slave fc =
      if resp.length < 4 then .frmShort
      else if resp[0]? ≠ some slave then .frmAddr
      else if resp[1]? ≠ some fc then .frmFc
      else .ok := by
  match resp with
  | [] | [_] | [_, _] | [_, _, _] => rfl
  | r0 :: r1 :: r2 :: r3 :: rest => simp [hdrCheck_long]

theorem responseAccepted_iff {s : State} : ResponseAccepted s ↔ s.responseCheck = .ok := by
  cases hvalid : s.reqValid with
  | false => simp [ResponseAccepted, responseCheck_noRequest hvalid, hvalid]
  | true =>
    rw [responseCheck_request hvalid, hdrCheck_eq_ite]
    split_ifs with hshort haddr hfc
    · simp [ResponseAccepted, hshort]
    · simp [ResponseAccepted, haddr]
    · simp [ResponseAccepted, hfc]
    · simpa [ResponseAccepted, hvalid] using And.intro hshort (And.intro haddr hfc)

/-- A code equal to a failure `c` is no success: the form in which `responseRefused_iff` needs each case. -/
theorem eq_failure_iff {c code : Code} (hc : c ≠ .ok) : code = c ↔ c = code ∧ code ≠ .ok :=
  ⟨fun h => ⟨h.symm, h ▸ hc⟩, fun ⟨h, _⟩ => h.symm⟩

theorem responseRefused_iff {s : State} {code : Code} :
    ResponseRefused s code ↔ s.responseCheck = code ∧ code ≠ .ok := by
  cases hvalid : s.reqValid with
  | false =>
    rw [ResponseRefused, responseCheck_noRequest hvalid, if_pos hvalid]
    exact eq_failure_iff (by decide)
  | true =>
    rw [ResponseRefused, responseCheck_request hvalid, hdrCheck_eq_ite, if_neg (by simp [hvalid])]
    split_ifs
    · exact eq_failure_iff (by decide)
    · exact eq_failure_iff (by decide)
    · exact eq_failure_iff (by decide)
    · exact ⟨False.elim, fun ⟨h, hne⟩ => hne h.symm⟩

/-! ## What each decoder does with a response (R134, R135, R136) -/

/-- The decoders, each with the opcode of its row. -/
def decoders : List (Instr × Byte) := [(.decBits, 0x20), (.decRegs, 0x21), (.decWr, 0x22)]

/-- Every decoder fails with what the common check reports (R133). -/
theorem exec_decoder_of_refused {i : Instr} {opcode : Byte} (hi : (i, opcode) ∈ decoders) {s : State} {code : Code}
    (hrefused : ResponseRefused s code) : exec i s = fail code opcode { s with out := [] } := by
  obtain ⟨hcheck, hcode⟩ := responseRefused_iff.mp hrefused
  simp only [decoders, List.mem_cons, Prod.mk.injEq, List.not_mem_nil, or_false] at hi
  obtain ⟨rfl, rfl⟩ | ⟨rfl, rfl⟩ | ⟨rfl, rfl⟩ := hi
  all_goals exact rejectResponse_of_refused hcheck hcode _ _

section
variable {s : State} (haccepted : ResponseAccepted s)
include haccepted

/-- A decoder goes on to its own checks when the common ones accept the response. -/
theorem decoder_of_accepted (refused accepted : Result) :
    (if s.responseCheck ≠ .ok then refused else accepted) = accepted :=
  if_neg (not_not_intro (responseAccepted_iff.mp haccepted))

/-- There is nothing to strip from a response of four bytes (R131, R134, R135). -/
theorem rejectResponse_of_four_bytes (hlen : s.rx.length = 4) (refused accepted : Result) (opcode : Byte) :
    (if s.responseCheck ≠ .ok then refused
      else if s.rx.length < 5 then rejectResponse .frmStrip opcode s else accepted) =
      fail .frmStrip opcode { s with out := [] } :=
  (decoder_of_accepted haccepted _ _).trans (if_pos (hlen.trans_lt (by decide)))

variable {a b n : Byte} {data : List Byte} {x y : Byte} (hrx : s.rx = readResponse a b n data x y)
include hrx

/-- An accepted read response answers the latched request. -/
theorem header_of_accepted : a = s.reqSlave ∧ b = s.reqFc := by
  obtain ⟨-, -, haddr, hfc⟩ := haccepted
  exact ⟨by simpa [hrx, readResponse] using haddr, by simpa [hrx, readResponse] using hfc⟩

/-- A read response is long enough to strip (R131, R134, R135). -/
theorem stripping_decoder_of_data (refused short accepted : Result) :
    (if s.responseCheck ≠ .ok then refused else if s.rx.length < 5 then short else accepted) = accepted := by
  have hlong : ¬ s.rx.length < 5 := by simp [hrx, readResponse_length]
  rw [decoder_of_accepted haccepted, if_neg hlong]

theorem execDecBits_of_data : execDecBits s = complete .ok (natRes data.length) { s with out := data } := by
  rw [execDecBits, stripping_decoder_of_data haccepted hrx, hrx, strip_readResponse]

theorem execDecRegs_of_odd_data (hodd : data.length % 2 = 1) :
    execDecRegs s = fail .frmOdd 0x21 { s with out := [] } := by
  have hrest : (s.rx.length - 5) % 2 = 1 := by rwa [hrx, readResponse_length]
  exact (stripping_decoder_of_data haccepted hrx _ _ _).trans (if_pos hrest)

theorem execDecRegs_of_even_data (heven : data.length % 2 = 0) :
    execDecRegs s = complete .ok (natRes (data.length / 2)) { s with out := data } := by
  obtain ⟨rfl, rfl⟩ := header_of_accepted haccepted hrx
  obtain ⟨hvalid, -⟩ := haccepted
  exact execDecRegs_readResponse hvalid hrx heven

end

/-- Settles O30: the response is refused, or too short to strip, or stripped. -/
theorem decBitsChecksAndStrips : Obligations.DecBitsChecksAndStrips := by
  refine ⟨decodeOfEncodeIsTheInstruction .decBits rfl, fun s => ⟨fun code hrefused => ?_, fun haccepted hlen => ?_, ?_⟩⟩
  · exact fails_of_exec_eq (exec_decoder_of_refused (by decide) hrefused)
  · exact fails_of_exec_eq (rejectResponse_of_four_bytes haccepted hlen _ _ Op.decBits.code)
  · intro haccepted a b n data x y hrx
    exact execDecBits_of_data haccepted hrx

/-- Settles O31: as O30, and stripped data is odd or counted in registers. -/
theorem decRegsChecksStripsAndWantsPairs : Obligations.DecRegsChecksStripsAndWantsPairs := by
  refine ⟨decodeOfEncodeIsTheInstruction .decRegs rfl, fun s => ⟨fun code hrefused => ?_, fun haccepted hlen => ?_, ?_⟩⟩
  · exact fails_of_exec_eq (exec_decoder_of_refused (by decide) hrefused)
  · exact fails_of_exec_eq (rejectResponse_of_four_bytes haccepted hlen _ _ Op.decRegs.code)
  · intro haccepted a b n data x y hrx
    split
    · next hodd => exact fails_of_exec_eq (execDecRegs_of_odd_data haccepted hrx hodd)
    · next hodd => exact execDecRegs_of_even_data haccepted hrx (Nat.mod_two_ne_one.mp hodd)

/-- Settles O32: the response is refused, or the command completes with OUT empty. -/
theorem decWrChecksTheHeaderOnly : Obligations.DecWrChecksTheHeaderOnly := by
  refine ⟨decodeOfEncodeIsTheInstruction .decWr rfl, fun s => ⟨fun code hrefused => ?_, fun haccepted => ?_⟩⟩
  · exact fails_of_exec_eq (exec_decoder_of_refused (by decide) hrefused)
  · exact decoder_of_accepted haccepted _ _

/-! ## Exception responses (R137) -/

/-- Setting bit 7 changes a function code that has it clear. -/
theorem or_0x80_ne {fc : Byte} (hclear : fc.getLsbD 7 = false) : fc ||| 0x80 ≠ fc := by
  intro heq
  have hset : (fc ||| 0x80).getLsbD 7 = true := by simp
  rw [heq, hclear] at hset
  contradiction

/-- An exception response is refused for its function code. -/
theorem responseRefused_of_exception {s : State} {code x : Byte} {more : List Byte} (hvalid : s.reqValid = true)
    (hclear : s.reqFc.getLsbD 7 = false) (hrx : s.rx = s.reqSlave :: (s.reqFc ||| 0x80) :: code :: x :: more) :
    ResponseRefused s .frmFc := by
  refine responseRefused_iff.mpr ⟨?_, by decide⟩
  rw [responseCheck_request hvalid, hrx, hdrCheck_long, if_neg (not_not_intro rfl), if_pos (or_0x80_ne hclear)]

/-- `RD.RX` of an index at which RX holds a byte (44_buffer_and_system.md R166). -/
theorem execRdRx_of_some {s : State} {k : Half} {d : Byte} (hd : s.rx[k.toNat]? = some d) :
    execRdRx k s = complete .ok (zext32 d) s := by
  simp only [execRdRx, readByte, hd]

/-- Settles O33: the function code is refused, and the failing decoder leaves RX as it was. -/
theorem exceptionResponsesAreFunctionCodeMismatches : Obligations.ExceptionResponsesAreFunctionCodeMismatches := by
  intro s code x more hvalid hclear hrx i opcode hi
  have hexec := exec_decoder_of_refused hi (responseRefused_of_exception hvalid hclear hrx)
  obtain ⟨t, ht, hfailed⟩ := fails_of_exec_eq hexec
  have hkept : t.rx = s.rx := by
    cases ht.symm.trans hexec
    simp
  exact ⟨t, ht, hfailed, execRdRx_of_some (by rw [hkept, hrx]; rfl), execRdRx_of_some (by rw [hkept, hrx]; rfl)⟩

end Sys2Proof.Machine

/-!
PROOFS. The length predictor (43_length_predictor.md R150 to R153): `predict` has a value just on the inputs `PRED` accepts, that
value is the one the statements name, it fits EXPLEN, and for a framed read request it counts the bytes of the response.
-/

namespace Sys2Proof.Machine

/-! ## The function `predict` (R150, R152) -/

/-- What a clause makes of the quantity, over byte indices (R150). -/
theorem map_requestQty_eq_some_iff {request : List Byte} {clause : Nat → Nat} {n : Nat} :
    (requestQty request).map clause = some n ↔
      ∃ h l, request[4]? = some h ∧ request[5]? = some l ∧ n = clause (256 * h.toNat + l.toNat) := by
  match request with
  | [] | [_] | [_, _] | [_, _, _] | [_, _, _, _] | [_, _, _, _, _] => simp [requestQty]
  | _ :: _ :: _ :: _ :: h :: l :: _ => simp [requestQty_of_bytes, ofBe16_toNat, eq_comm]

/-- Without both quantity bytes there is no quantity (R151). -/
theorem requestQty_eq_none_iff {request : List Byte} : requestQty request = none ↔ request.length < 6 := by
  match request with
  | [] | [_] | [_, _] | [_, _, _] | [_, _, _, _] | [_, _, _, _, _] => simp [requestQty]
  | _ :: _ :: _ :: _ :: h :: l :: _ => simp [requestQty_of_bytes]

/-- An input shorter than an ADU has no prediction (R151). -/
theorem predict_of_short {request : List Byte} (hshort : request.length < 4) (cfg : Config) : predict cfg request = none := by
  match request with
  | [] | [_] | [_, _] | [_, _, _] => rfl
  | _ :: _ :: _ :: _ :: _ => simp only [List.length_cons] at hshort; omega

theorem mem_readCodes_iff {cfg : Config} {fc : Byte} :
    fc ∈ readCodes cfg ↔ (fc = cfg.fcRc ∨ fc = cfg.fcRdi) ∨ fc = cfg.fcRhr ∨ fc = cfg.fcRir := by
  simp [readCodes, or_assoc]

section
variable {cfg : Config} {request : List Byte} {fc : Byte} (hlen : 4 ≤ request.length) (hfc : request[1]? = some fc)
include hlen hfc

/-- The clauses of the predictor for the function code at byte 1 (R150). -/
theorem predict_eq_ite :
    predict cfg request =
      if fc = cfg.fcRc ∨ fc = cfg.fcRdi then (requestQty request).map (fun q => 4 + 1 + (q + 7) / 8)
      else if fc = cfg.fcRhr ∨ fc = cfg.fcRir then (requestQty request).map (fun q => 4 + 1 + 2 * q)
      else if fc ∈ cfg.writeFcSet then some (4 + 4)
      else some 4 := by
  match request with
  | [] | [_] | [_, _] | [_, _, _] => simp at hlen
  | _ :: _ :: _ :: _ :: _ => cases hfc; rfl

/-- An ADU has no prediction just when its code is a read code and the quantity bytes do not exist (R151). -/
theorem predict_eq_none_iff : predict cfg request = none ↔ fc ∈ readCodes cfg ∧ request.length < 6 := by
  rw [predict_eq_ite hlen hfc, mem_readCodes_iff]
  split_ifs with hbits hregs
  · simp [hbits, requestQty_eq_none_iff]
  · simp [hregs, requestQty_eq_none_iff]
  · simp [hbits, hregs]
  · simp [hbits, hregs]

end

/-- `predict` has the value that the statements name, and has it on an ADU only (R150). -/
theorem predict_eq_some_iff {cfg : Config} {request : List Byte} {n : Nat} :
    predict cfg request = some n ↔ 4 ≤ request.length ∧ PredictedLength cfg request n := by
  rcases Nat.lt_or_ge request.length 4 with hshort | hlen
  · simp [predict_of_short hshort, Nat.not_le_of_lt hshort]
  · have hfc : request[1]? = some request[1] := List.getElem?_eq_getElem _
    simp only [predict_eq_ite hlen hfc, PredictedLength, hfc, Option.some_inj, exists_eq_left', hlen, true_and]
    split_ifs
    · exact map_requestQty_eq_some_iff
    · exact map_requestQty_eq_some_iff
    · exact Option.some_inj.trans eq_comm
    · exact Option.some_inj.trans eq_comm

/-- The range of the prediction (R152), from that of its two quantity bytes. -/
theorem PredictedLength.bounds {cfg : Config} {request : List Byte} {n : Nat} (h : PredictedLength cfg request n) :
    4 ≤ n ∧ n ≤ 131075 := by
  obtain ⟨fc, -, hclause⟩ := h
  split_ifs at hclause
  · obtain ⟨hi, lo, -, -, rfl⟩ := hclause
    omega
  · obtain ⟨hi, lo, -, -, rfl⟩ := hclause
    omega
  · omega
  · omega

/-- From 18 bits on, a register holds every prediction exactly (R152). -/
theorem toNat_ofNat_of_predict {cfg : Config} {request : List Byte} {n w : Nat} (h : predict cfg request = some n)
    (hw : 18 ≤ w) : (BitVec.ofNat w n).toNat = n := by
  obtain ⟨-, hpredicted⟩ := predict_eq_some_iff.mp h
  have hlt : n < 2 ^ 18 := hpredicted.bounds.2.trans_lt (by decide)
  exact Nat.mod_eq_of_lt (hlt.trans_le (Nat.pow_le_pow_right (by decide) hw))

/-! ## The command `PRED` (R151) -/

/-- `PRED` on an input without a prediction. -/
theorem execPred_of_none {s : State} (h : predict s.cfg s.tx = none) : execPred s = fail .reqShort 0x30 s := by
  simp only [execPred, h, Op.code]

/-- `PRED` on an input with a prediction: the result, EXPLEN widened, is the prediction in 32 bits. -/
theorem execPred_of_some {s : State} {n : Nat} (h : predict s.cfg s.tx = some n) :
    execPred s = complete .ok (natRes n) { s with expLen := BitVec.ofNat 18 n } := by
  have hres : zext32 (BitVec.ofNat 18 n) = natRes n := by
    apply BitVec.eq_of_toNat_eq
    rw [zext32, natRes, BitVec.toNat_setWidth_of_le (by decide), toNat_ofNat_of_predict h (by decide),
      toNat_ofNat_of_predict h (by decide)]
  simp only [execPred, h, hres]

/-- Settles O35: TX has a prediction unless it is shorter than an ADU or lacks the quantity bytes its code calls for. -/
theorem predPredictsFromTheFrameInTx : Obligations.PredPredictsFromTheFrameInTx := by
  refine ⟨decodeOfEncodeIsTheInstruction .pred rfl, fun s => ⟨fun hshort => ?_, fun fc hfc hread hshort => ?_, ?_⟩⟩
  · exact fails_of_exec_eq (execPred_of_none (predict_of_short hshort s.cfg))
  · refine fails_of_exec_eq (execPred_of_none ?_)
    rcases Nat.lt_or_ge s.tx.length 4 with hnoAdu | hlen
    · exact predict_of_short hnoAdu s.cfg
    · exact (predict_eq_none_iff hlen hfc).mpr ⟨hread, hshort⟩
  · intro fc hlen hfc hqty
    have hsome : predict s.cfg s.tx ≠ none := fun hnone =>
      have ⟨hread, hshort⟩ := (predict_eq_none_iff hlen hfc).mp hnone
      Nat.not_le_of_lt hshort (hqty hread)
    obtain ⟨n, hn⟩ := Option.ne_none_iff_exists'.mp hsome
    exact ⟨n, (predict_eq_some_iff.mp hn).2, execPred_of_some hn⟩

/-- Settles O36: the prediction is bounded by its clauses, and 18 and 32 bits hold it. -/
theorem predictionNeverWraps : Obligations.PredictionNeverWraps := by
  intro s n hlen hpredicted
  have hn : predict s.cfg s.tx = some n := predict_eq_some_iff.mpr ⟨hlen, hpredicted⟩
  obtain ⟨hmin, hmax⟩ := hpredicted.bounds
  exact ⟨hmin, hmax, _, _, execPred_of_some hn, toNat_ofNat_of_predict hn (by decide), rfl, rfl,
    toNat_ofNat_of_predict hn (by decide)⟩

/-! ## Read requests (R150, 30_encoding.md R62, R66) -/

/-- The quantity of a framed read request is the one it was built from (30_encoding.md R62). -/
theorem requestQty_readRequest (slave fc : Byte) (addr qty : Half) (s : State) :
    requestQty (framed slave fc (field16 addr ++ field16 qty) s).tx = some qty.toNat :=
  (requestQty_of_bytes ..).trans (congrArg (fun v => some v.toNat) (ofBe16_bytes qty))

section
variable (slave : Byte) {fc : Byte} (addr qty : Half) {s : State}

/-- What is predicted for a framed request to read bits. -/
theorem predict_readBitsRequest (hbits : fc = s.cfg.fcRc ∨ fc = s.cfg.fcRdi) :
    predict s.cfg (framed slave fc (field16 addr ++ field16 qty) s).tx = some (4 + 1 + (qty.toNat + 7) / 8) := by
  rw [predict_eq_ite (fc := fc) (by simp [framed]) rfl, if_pos hbits, requestQty_readRequest, Option.map_some]

/-- What is predicted for a framed request to read registers: its code is no code for reading bits, as 00_scope.md R4 keeps the
codes distinct. -/
theorem predict_readRegistersRequest (hwf : s.cfg.wf) (hregs : fc = s.cfg.fcRhr ∨ fc = s.cfg.fcRir) :
    predict s.cfg (framed slave fc (field16 addr ++ field16 qty) s).tx = some (4 + 1 + 2 * qty.toNat) := by
  have hbits : ¬ (fc = s.cfg.fcRc ∨ fc = s.cfg.fcRdi) := by
    obtain ⟨-, -, hdistinct⟩ := hwf
    simp only [Config.functionCodes, List.nodup_cons, List.mem_cons, not_or] at hdistinct
    obtain ⟨⟨-, hrcRhr, hrcRir, -⟩, ⟨hrdiRhr, hrdiRir, -⟩, -⟩ := hdistinct
    rcases hregs with rfl | rfl
    · exact not_or.mpr ⟨Ne.symm hrcRhr, Ne.symm hrdiRhr⟩
    · exact not_or.mpr ⟨Ne.symm hrcRir, Ne.symm hrdiRir⟩
  rw [predict_eq_ite (fc := fc) (by simp [framed]) rfl, if_neg hbits, if_pos hregs, requestQty_readRequest, Option.map_some]

end

/-- A framing command and then `PRED` leave in EXPLEN what is predicted for the frame. -/
theorem expLen_of_framed {i : Instr} {s : State} {slave fc : Byte} {payload : List Byte} {n : Nat}
    (hexec : exec i s = .next (framed slave fc payload s))
    (hn : predict s.cfg (framed slave fc payload s).tx = some n) :
    ∃ t u, exec i s = .next t ∧ exec .pred t = .next u ∧ u.expLen.toNat = n :=
  ⟨_, _, hexec, execPred_of_some hn, toNat_ofNat_of_predict hn (by decide)⟩

/-- Settles O37: each of the four frames carries its quantity, and the response is as long as the clause for its code says. -/
theorem predictedLengthIsThatOfTheNormalResponse : Obligations.PredictedLengthIsThatOfTheNormalResponse := by
  intro s slave addr qty data count x y hwf
  obtain ⟨-, -, -, -, hrc, hrdi, hrhr, hrir⟩ := readRequestsAreFramed s slave addr qty
  simp only [readResponse_length, Nat.add_comm data.length]
  refine ⟨fun hdata => ?_, fun hdata => ?_⟩
  · rw [hdata]
    exact ⟨expLen_of_framed hrc (predict_readBitsRequest slave addr qty (.inl rfl)),
      expLen_of_framed hrdi (predict_readBitsRequest slave addr qty (.inr rfl))⟩
  · rw [hdata]
    exact ⟨expLen_of_framed hrhr (predict_readRegistersRequest slave addr qty hwf (.inl rfl)),
      expLen_of_framed hrir (predict_readRegistersRequest slave addr qty hwf (.inr rfl))⟩

end Sys2Proof.Machine

/-!
PROOFS. Buffer access and system commands (44_buffer_and_system.md R160 to R170): what a read of a byte, of a pair of bytes and
of a status register returns, and the two paths of the commands that append a byte.
-/

namespace Sys2Proof.Machine

/-! ## The pairs of OUT (R168, 42_frame_decode.md R132) -/

/-- `regs` takes the whole pairs. -/
theorem regs_length (data : List Byte) : (regs data).length = data.length / 2 := by
  induction data using regs.induct with
  | case1 h l rest ih => simp only [regs, List.length_cons, ih]; omega
  | case2 b => simp [regs]
  | case3 => rfl

/-- The `k`-th register is the pair of bytes at `2k` and `2k + 1`. -/
theorem getElem?_regs_of_pair {data : List Byte} {k : Nat} {h l : Byte} (hh : data[2 * k]? = some h)
    (hl : data[2 * k + 1]? = some l) : (regs data)[k]? = some (ofBe16 h l) := by
  induction data using regs.induct generalizing k with
  | case1 a b rest ih =>
    cases k with
    | zero => cases hh; cases hl; rfl
    | succ k => exact ih hh hl
  | case2 b => simp at hl
  | case3 => simp at hl

/-- The value of a pair of bytes in a completion record (20_memory.md R44). -/
theorem zext32_ofBe16 (h l : Byte) : zext32 (ofBe16 h l) = BitVec.ofNat 32 (256 * h.toNat + l.toNat) := by
  rw [← ofBe16_toNat, BitVec.ofNat_toNat, zext32]

/-- Settles O42: both bytes of the pair are in OUT, or the second one is not. -/
theorem rdRegReturnsTheBigEndianPair : Obligations.RdRegReturnsTheBigEndianPair := by
  refine fun s k => ⟨decodeOfEncodeIsTheInstruction (.rdReg k) rfl, fun h l hh hl => ?_, fun hlen => ⟨?_, ?_⟩⟩
  · rw [← zext32_ofBe16]
    exact ⟨getElem?_regs_of_pair hh hl, execRdReg_of_pair hh hl⟩
  · exact List.getElem?_eq_none (by rw [regs_length]; omega)
  · exact fails_of_exec_eq (execRdReg_of_le hlen)

/-! ## `NOP` and the buffers PAY and RX (R160 to R164) -/

/-- Settles O38: the command completes in the state as it is. -/
theorem nopChangesNothing : Obligations.NopChangesNothing :=
  ⟨decodeOfEncodeIsTheInstruction .nop rfl, fun _ => rfl⟩

/-- Settles O39: the two paths of the push, by whether PAY is full. -/
theorem payIsAppendedToAndEmptied : Obligations.PayIsAppendedToAndEmptied := by
  refine ⟨fun d => decodeOfEncodeIsTheInstruction (.pushPay d) rfl, decodeOfEncodeIsTheInstruction .clrPay rfl,
    fun s d => ⟨fun hfull => ?_, fun hroom => ?_, rfl⟩⟩
  · exact fails_of_exec_eq (if_pos hfull)
  · exact if_neg hroom

/-- Settles O40: the two paths of the push, by whether RX is full. -/
theorem rxIsAppendedToAndEmptied : Obligations.RxIsAppendedToAndEmptied := by
  refine ⟨fun d => decodeOfEncodeIsTheInstruction (.pushRx d) rfl, decodeOfEncodeIsTheInstruction .clrRx rfl,
    fun s d => ⟨fun hfull => ?_, fun hroom => ?_, rfl⟩⟩
  · exact fails_of_exec_eq (if_pos hfull)
  · exact if_neg hroom

/-! ## Reading a byte (R165 to R167) -/

/-- `readByte` of an index at which the buffer holds a byte. -/
theorem readByte_of_some {buf : Buffer} {k : Half} {d : Byte} (hd : buf[k.toNat]? = some d) (opcode : Byte) (s : State) :
    readByte buf k opcode s = complete .ok (zext32 d) s := by
  simp only [readByte, hd]

/-- Settles O41: each of the three commands reads one byte of its buffer. -/
theorem byteReadsReturnTheByteOrFail : Obligations.ByteReadsReturnTheByteOrFail := fun s k =>
  ⟨decodeOfEncodeIsTheInstruction (.rdTx k) rfl, decodeOfEncodeIsTheInstruction (.rdRx k) rfl,
    decodeOfEncodeIsTheInstruction (.rdOut k) rfl,
    fun _ hd => readByte_of_some hd _ s, fun _ hd => readByte_of_some hd _ s, fun _ hd => readByte_of_some hd _ s,
    fun hlen => fails_of_exec_eq (readByte_of_le hlen _ s), fun hlen => fails_of_exec_eq (readByte_of_le hlen _ s),
    fun hlen => fails_of_exec_eq (readByte_of_le hlen _ s)⟩

/-! ## The status registers (R169, 10_state.md R26) -/

/-- A widened value stands in the low bits, below zeros (00_scope.md R7). -/
theorem extractLsb'_zext32 {n m : Nat} (hn : n + m = 32) (v : BitVec n) :
    (zext32 v).extractLsb' 0 n = v ∧ (zext32 v).extractLsb' n m = 0 := by
  constructor
  · rw [zext32, BitVec.extractLsb'_setWidth_of_le (by omega), BitVec.extractLsb'_eq_self]
  · ext i hi
    simp [zext32]

/-- A field above the low part of a word is a field of the rest. -/
theorem extractLsb'_append_of_high {m n start len : Nat} {x : BitVec m} {y : BitVec n} {z : BitVec len} (h : n ≤ start)
    (hz : x.extractLsb' (start - n) len = z) : (x ++ y).extractLsb' start len = z :=
  (BitVec.extractLsb'_append_eq_of_le h).trans hz

/-- Two bytes below zeros, as SR[2] and SR[8] hold them. -/
theorem extractLsb'_two_bytes (hi lo : Byte) :
    ((0 : Half) ++ hi ++ lo).extractLsb' 0 8 = lo ∧ ((0 : Half) ++ hi ++ lo).extractLsb' 8 8 = hi ∧
      ((0 : Half) ++ hi ++ lo).extractLsb' 16 16 = 0 :=
  ⟨BitVec.extractLsb'_append_eq_right, extractLsb'_append_of_high (by decide) BitVec.extractLsb'_append_eq_right,
    extractLsb'_append_of_high (by decide) BitVec.extractLsb'_append_eq_left⟩

/-- The bits of STATUS (10_state.md R26). -/
theorem statusValue_statusWord (s : State) : StatusValue s 0 s.statusWord := by
  unfold StatusValue State.statusWord
  refine ⟨BitVec.extractLsb'_append_eq_right, ?_, ?_, ?_, ?_⟩
  · exact extractLsb'_append_of_high (by decide) BitVec.extractLsb'_append_eq_right
  · simp only [BitVec.getLsbD_append]
    simp
  · simp only [BitVec.getLsbD_append]
    simp
  · exact extractLsb'_append_of_high (by decide) (extractLsb'_append_of_high (by decide)
      (extractLsb'_append_of_high (by decide) BitVec.extractLsb'_append_eq_left))

/-- What the model reads as a status register has the bits that the table lists. -/
theorem statusValue_of_statusReg {s : State} {n : Nat} {v : Res} (h : s.statusReg n = some v) : StatusValue s n v := by
  match n with
  | 0 => cases h; exact statusValue_statusWord s
  | 1 => cases h; exact extractLsb'_zext32 rfl s.crc
  | 2 => cases h; exact extractLsb'_two_bytes s.reqFc s.reqSlave
  | 3 | 4 | 5 | 6 | 9 => cases h; rfl
  | 7 => cases h; exact extractLsb'_zext32 rfl s.expLen
  | 8 => cases h; exact extractLsb'_two_bytes s.cfg.addrMax s.cfg.addrMin
  | m + 10 => cases h

/-- A status register above 9 makes the word illegal (30_encoding.md R73). -/
theorem decode_rdSr_of_gt {n : Half} (hn : 9 < n.toNat) : decode (packWord 0x50 0 n 0) = .illegal .statusNumber :=
  (decode_packWord .rdSr 0 n 0).trans ((if_pos rfl).trans (if_pos ⟨rfl, hn⟩))

/-- Settles O43: the number is assigned, or the word is illegal. -/
theorem rdSrReturnsTheStatusRegister : Obligations.RdSrReturnsTheStatusRegister := by
  refine fun s n => ⟨fun hn => ?_, fun hn rest => ?_⟩
  · obtain ⟨v, hv⟩ := State.statusReg_of_le hn s
    exact ⟨decodeOfEncodeIsTheInstruction (.rdSr n) (decide_eq_true hn), v, statusValue_of_statusReg hv, execRdSr_of_some hv⟩
  · rw [step_illegal rfl (decode_rdSr_of_gt hn), execIllegal, opField_packWord]
    exact fail_failedAs .illCmd 0x50 { s with port := rest }

/-! ## The first-error record (R170) -/

/-- Settles O44: the command completes in the state without the record. -/
theorem clrErrClearsTheFirstErrorRecord : Obligations.ClrErrClearsTheFirstErrorRecord :=
  ⟨decodeOfEncodeIsTheInstruction .clrErr rfl, fun _ => rfl⟩

end Sys2Proof.Machine

/-!
PROOFS. Completion codes and the first-error record (60_exceptions.md R190 to R195): every word, legal or illegal, is answered
with `OK` or a failure of its own, and the first-error record follows the code; both are said once for every command, and the
statements read them off.
-/

namespace Sys2Proof.Machine

/-! ## Codes and completion records (R190, R191) -/

/-- Settles O10: the numbers are the definition's, and each code has its class or none. -/
theorem completionCodesHaveTheirNumbers : Obligations.CompletionCodesHaveTheirNumbers := by
  refine ⟨rfl, fun c => ?_, fun c => ?_⟩
  · cases c <;> decide
  · cases c <;> decide

/-- Settles O47: every path of every command answers once. -/
theorem everyCommandReturnsOneCompletionRecord : Obligations.EveryCommandReturnsOneCompletionRecord := exec_answersOnce

/-! ## How a word is answered (R191, R192, R195) -/

/-- The failures of a decoded word: the column "raised by" of R191, and `E_ILLCMD` of an illegal word (30_encoding.md R73). -/
def wordFailures : Decoded → List Code
  | .command i => failuresOf i.op
  | .illegal _ => [.illCmd]

/-- No word fails with `OK`. -/
theorem ne_ok_of_mem_wordFailures {d : Decoded} {code : Code} (h : code ∈ wordFailures d) : code ≠ .ok := by
  rintro rfl
  cases d with
  | illegal why => simp [wordFailures] at h
  | command i =>
    have hnone : ∀ op : Op, Code.ok ∉ failuresOf op := fun op => by cases op <;> decide
    exact hnone i.op h

/-- What R192, R195 and 10_state.md R17 make of the first-error record when a word with the given top byte, decoded to `d`, is
answered with `code`. -/
def FirstErrorFollows (d : Decoded) (opcode : Byte) (code : Code) (s t : State) : Prop :=
  if code ≠ .ok then
    if s.ecause = 0 then t.ecause = code.bits ∧ t.ecmd = opcode else t.ecause = s.ecause ∧ t.ecmd = s.ecmd
  else if d = .command .clrErr ∨ d = .command .srst then t.ecause = 0 ∧ t.ecmd = 0
  else t.ecause = s.ecause ∧ t.ecmd = s.ecmd

/-- From `s` to `t` a word with the given top byte, decoded to `d`, is answered with one record: `OK` or a failure of its own. -/
def Answered (d : Decoded) (opcode : Byte) (s t : State) : Prop :=
  ∃ c : Completion, t.trace = s.trace ++ [c] ∧ (c.cc = .ok ∨ c.cc ∈ wordFailures d) ∧ FirstErrorFollows d opcode c.cc s t

/-- A decoder's own list names every failure that the common check reports (42_frame_decode.md R130, R133). -/
theorem responseCheck_mem_failuresOf {op : Op} (hop : op ∈ [.decBits, .decRegs, .decWr]) {s : State}
    (hrefused : s.responseCheck ≠ .ok) : s.responseCheck ∈ failuresOf op := by
  have hcommon : ∀ op ∈ [Op.decBits, .decRegs, .decWr], ∀ code ∈ [Code.noReq, .frmShort, .frmAddr, .frmFc],
      code ∈ failuresOf op := by decide
  refine hcommon op hop _ ?_
  cases hvalid : s.reqValid with
  | false => simp [responseCheck_noRequest hvalid]
  | true =>
    rw [responseCheck_request hvalid] at hrefused ⊢
    obtain hok | hshort | haddr | hfc := hdrCheck_cases s.rx s.reqSlave s.reqFc
    · exact absurd hok hrefused
    · simp [hshort]
    · simp [haddr]
    · simp [hfc]

/-- The first-error record and the completion records are the same in both states. -/
def SameRecords (s s' : State) : Prop := s'.ecause = s.ecause ∧ s'.ecmd = s.ecmd ∧ s'.trace = s.trace

namespace Answered

/-- What is answered is the record that a statement names. -/
theorem of_trace {d : Decoded} {opcode : Byte} {s t : State} {c : Completion} (h : Answered d opcode s t)
    (htrace : t.trace = s.trace ++ [c]) : (c.cc = .ok ∨ c.cc ∈ wordFailures d) ∧ FirstErrorFollows d opcode c.cc s t := by
  obtain ⟨c', htrace', hanswer⟩ := h
  obtain rfl : c' = c := by simpa using htrace'.symm.trans htrace
  exact hanswer

section
variable {d : Decoded} {opcode : Byte} {s s' : State}

/-- A success other than that of `CLR.ERR` and `SRST` leaves the first-error record. -/
theorem complete {res : Res} (h : SameRecords s s') (hd : ¬ (d = .command .clrErr ∨ d = .command .srst) := by simp) :
    Ends (Answered d opcode s) (complete .ok res s') := by
  obtain ⟨hcause, hcmd, htrace⟩ := h
  refine ⟨_, complete_next .ok res s', ⟨.ok, res⟩, by simp [htrace], .inl rfl, ?_⟩
  simpa [FirstErrorFollows, hd] using And.intro hcause hcmd

/-- Error entry writes the first-error record while it is empty. -/
theorem fail {code : Code} (h : SameRecords s s')
    (hcode : code ∈ wordFailures d := by simp [wordFailures, Instr.op, failuresOf]) :
    Ends (Answered d opcode s) (fail code opcode s') := by
  obtain ⟨hcause, hcmd, htrace⟩ := h
  refine ⟨_, fail_next code opcode s', ⟨code, 0⟩, by simp [htrace], .inr hcode, ?_⟩
  rw [FirstErrorFollows, if_pos (ne_ok_of_mem_wordFailures hcode)]
  split
  · next hempty => rw [State.recordError_first (hcause.trans hempty)]; exact ⟨rfl, rfl⟩
  · next hset => rw [State.recordError_sticky (hcause ▸ hset)]; exact ⟨hcause, hcmd⟩

/-- `CLR.ERR` and `SRST` complete in a state without first-error record. -/
theorem cleared {res : Res} (hcause : s'.ecause = 0) (hcmd : s'.ecmd = 0) (htrace : s'.trace = s.trace)
    (hd : d = .command .clrErr ∨ d = .command .srst := by simp) :
    Ends (Answered d opcode s) (Machine.complete .ok res s') := by
  refine ⟨_, complete_next .ok res s', ⟨.ok, res⟩, by simp [htrace], .inl rfl, ?_⟩
  simpa [FirstErrorFollows, hd] using And.intro hcause hcmd

end

theorem readByte {d : Decoded} (buf : Buffer) (k : Half) (opcode : Byte) (s : State)
    (hd : ¬ (d = .command .clrErr ∨ d = .command .srst) := by simp)
    (hcode : Code.idx ∈ wordFailures d := by simp [wordFailures, Instr.op, failuresOf]) :
    Ends (Answered d opcode s) (readByte buf k opcode s) := by
  obtain ⟨v, -, hread⟩ | ⟨-, hread⟩ := readByte_cases buf k opcode s
  · rw [hread]; exact complete ⟨rfl, rfl, rfl⟩ hd
  · rw [hread]; exact fail ⟨rfl, rfl, rfl⟩ hcode

theorem execRdReg (k : Half) (s : State) :
    Ends (Answered (.command (.rdReg k)) Op.rdReg.code s) (execRdReg k s) := by
  unfold Machine.execRdReg
  split
  · exact complete ⟨rfl, rfl, rfl⟩
  · exact fail ⟨rfl, rfl, rfl⟩

/-- With an existing status register `RD.SR` has no failing path (10_state.md R26). -/
theorem execRdSr {n : Half} (hn : n.toNat ≤ 9) (s : State) :
    Ends (Answered (.command (.rdSr n)) Op.rdSr.code s) (execRdSr n s) := by
  obtain ⟨v, hv⟩ := State.statusReg_of_le hn s
  rw [execRdSr_of_some hv]
  exact complete ⟨rfl, rfl, rfl⟩

theorem execPred (s : State) : Ends (Answered (.command .pred) Op.pred.code s) (execPred s) := by
  unfold Machine.execPred
  split
  · exact fail ⟨rfl, rfl, rfl⟩
  · exact complete ⟨rfl, rfl, rfl⟩

/-- A decoder on a refused response (42_frame_decode.md R133). -/
theorem refusedResponse {i : Instr} {s : State} (hrefused : s.responseCheck ≠ .ok) (opcode : Byte)
    (hi : i.op ∈ [.decBits, .decRegs, .decWr] := by decide) :
    Ends (Answered (.command i) opcode s) (rejectResponse s.responseCheck opcode s) :=
  fail ⟨rfl, rfl, rfl⟩ (responseCheck_mem_failuresOf hi hrefused)

/-- Every well-formed command is answered so: before it completes or fails, no path but those of `CLR.ERR` and `SRST` writes the
first-error record. -/
theorem exec {i : Instr} (hwf : i.WellFormed = true) (s : State) : Ends (Answered (.command i) i.op.code s) (exec i s) := by
  cases i with
  | nop | crcInit | crcUpd | crcRd | clrPay | clrRx | encRc | encRdi | encRhr | encRir | encWsc | encWsr =>
    exact complete ⟨rfl, rfl, rfl⟩
  | clrErr | srst => exact cleared rfl rfl rfl
  | crcFrame | pushPay | pushRx | encRaw =>
    exact .ite (fun _ => fail ⟨rfl, rfl, rfl⟩) fun _ => complete ⟨rfl, rfl, rfl⟩
  | crcChk => exact .ite (fun _ => complete ⟨rfl, rfl, rfl⟩) fun _ => complete ⟨rfl, rfl, rfl⟩
  | encWmr =>
    exact .ite (fun _ => fail ⟨rfl, rfl, rfl⟩) fun _ => .ite (fun _ => fail ⟨rfl, rfl, rfl⟩) fun _ =>
      .ite (fun _ => fail ⟨rfl, rfl, rfl⟩) fun _ => complete ⟨rfl, rfl, rfl⟩
  | decBits =>
    exact .ite (fun hrefused => refusedResponse hrefused _) fun _ =>
      .ite (fun _ => fail ⟨rfl, rfl, rfl⟩) fun _ => complete ⟨rfl, rfl, rfl⟩
  | decRegs =>
    exact .ite (fun hrefused => refusedResponse hrefused _) fun _ =>
      .ite (fun _ => fail ⟨rfl, rfl, rfl⟩) fun _ => .ite (fun _ => fail ⟨rfl, rfl, rfl⟩) fun _ => complete ⟨rfl, rfl, rfl⟩
  | decWr =>
    exact .ite (fun hrefused => refusedResponse hrefused _) fun _ => complete ⟨rfl, rfl, rfl⟩
  | pred => exact execPred s
  | rdTx | rdRx | rdOut => exact readByte _ _ _ s
  | rdReg k => exact execRdReg k s
  | rdSr n => exact execRdSr (of_decide_eq_true hwf) s

end Answered

/-- The top byte of a legal word is the opcode of its command's row (30_encoding.md R72). -/
theorem code_op_of_decode {w : CmdWord} {i : Instr} (hdec : decode w = .command i) : i.op.code = opField w := by
  obtain ⟨op, hcode, -, -, rfl⟩ := decode_eq_command_iff.mp hdec
  rwa [op_assemble]

/-- A step on any presented word answers it, with the word's own top byte in the first-error record (30_encoding.md R73). -/
theorem step_answered {s : State} {w : CmdWord} {rest : List HostInput} (hport : s.port = .command w :: rest) :
    Ends (Answered (decode w) (opField w) { s with port := rest }) (step s) := by
  cases hdec : decode w with
  | command i =>
    obtain ⟨-, hwf⟩ := encodeOfDecodeIsTheWord w i hdec
    rw [step_command hport hdec, ← code_op_of_decode hdec]
    exact Answered.exec hwf _
  | illegal why =>
    rw [step_illegal hport hdec]
    exact Answered.fail ⟨rfl, rfl, rfl⟩

/-- Settles O48: the one record that the command adds has `OK` or a code of its row. -/
theorem commandsFailOnlyWithTheirOwnCodes : Obligations.CommandsFailOnlyWithTheirOwnCodes := by
  intro i s t c hwf hexec htrace
  obtain ⟨hcode, -⟩ := ((Answered.exec hwf s).of_next hexec).of_trace htrace
  exact hcode

/-- Settles O49: the first-error record follows the code of the one record that the step adds. -/
theorem firstErrorRecordKeepsTheFirstFailure : Obligations.FirstErrorRecordKeepsTheFirstFailure := by
  intro s t w rest c hport hstep htrace
  obtain ⟨-, hrecord⟩ := ((step_answered hport).of_next hstep).of_trace htrace
  exact hrecord

end Sys2Proof.Machine

/-!
PROOFS. Reset and the host's side (70_reset_and_hazards.md R220, R221, R228, R230): a reset assertion, a read transaction put
together from the runs of its parts, and the post-write wait.
-/

namespace Sys2Proof.Machine

/-! ## A reset assertion (R220, R221) -/

/-- Settles O8: what `toReset` leaves of a state, written out. -/
theorem resetAssertionResetsTheBlock : Obligations.ResetAssertionResetsTheBlock :=
  fun _ _ _ hport => step_reset hport

/-! ## What a transaction does between its request and its decode (R228) -/

/-- `RD.TX` of each of the first `n` bytes, in order. -/
def txReads (n : Nat) : List Instr := (List.range n).map (fun k => .rdTx (BitVec.ofNat 16 k))

theorem txReads_succ (n : Nat) : txReads (n + 1) = txReads n ++ [.rdTx (BitVec.ofNat 16 n)] := by
  simp [txReads, List.range_succ]

/-- The records of reading bytes. -/
def byteRecords (bytes : List Byte) : List Completion := bytes.map (fun d => { cc := .ok, res := zext32 d })

/-- `RD.TX` of a byte that TX holds, at an index of 16 bits. -/
theorem leads_rdTx {s : State} {n : Nat} (hindex : n < 2 ^ 16) (hn : n < s.tx.length) :
    Leads (.rdTx (BitVec.ofNat 16 n)) s (s.deliver .ok (zext32 s.tx[n])) := by
  intro port
  have hbyte : s.tx[(BitVec.ofNat 16 n).toNat]? = some s.tx[n] := by
    rw [BitVec.toNat_ofNat, Nat.mod_eq_of_lt hindex, List.getElem?_eq_getElem hn]
  exact readByte_of_some hbyte _ _

/-- Reading out the first bytes of TX delivers them one by one, by induction on their number. -/
theorem txReads_runs (s : State) {n : Nat} (hindex : n ≤ 2 ^ 16) (hn : n ≤ s.tx.length) :
    Runs (txReads n) s { s with trace := s.trace ++ byteRecords (s.tx.take n) } := by
  induction n with
  | zero => simpa [txReads, byteRecords] using Runs.nil s
  | succ n ih =>
    have hfirst := ih (Nat.le_of_succ_le hindex) (Nat.le_of_succ_le hn)
    have hlast := leads_rdTx (s := { s with trace := s.trace ++ byteRecords (s.tx.take n) }) hindex hn
    have hrecords : byteRecords (s.tx.take (n + 1)) = byteRecords (s.tx.take n) ++ byteRecords [s.tx[n]] := by
      rw [← List.take_append_getElem hn, byteRecords, List.map_append]
      rfl
    rw [txReads_succ, hrecords, ← List.append_assoc]
    exact hfirst.append (Runs.single rfl hlast)

/-- Reading out TX delivers the frame. -/
theorem txReads_runs_all {s : State} (hindex : s.tx.length ≤ 2 ^ 16) :
    Runs (txReads s.tx.length) s { s with trace := s.trace ++ byteRecords s.tx } := by
  have hruns := txReads_runs s hindex le_rfl
  rwa [List.take_length] at hruns

/-- `PRED` where TX has a prediction (43_length_predictor.md R151). -/
theorem leads_pred {s : State} {n : Nat} (hn : predict s.cfg s.tx = some n) :
    Leads .pred s ({ s with expLen := BitVec.ofNat 18 n }.deliver .ok (natRes n)) :=
  fun _ => execPred_of_some hn

/-- The commands of a transaction from `CLR.RX` to the last byte received (R228 (3) to (6)). -/
def exchange (txLen : Nat) (response : List Byte) : List Instr :=
  .clrRx :: txReads txLen ++ [.pred] ++ response.map .pushRx

/-- The records of an exchange: of emptying RX, of the frame's bytes, of the prediction and of the bytes received. -/
def exchangeRecords (frame : List Byte) (predicted received : Nat) : List Completion :=
  { cc := .ok, res := 0 } :: byteRecords frame ++ [{ cc := .ok, res := natRes predicted }] ++ pushRecords 0 received

/-- The state an exchange leaves: the response in RX, with CRC_OK withdrawn, and the prediction in EXPLEN. -/
def State.exchanged (s : State) (predicted : Nat) (response : List Byte) : State :=
  { s with
    rx := response, crcOk := false, expLen := BitVec.ofNat 18 predicted
    trace := s.trace ++ exchangeRecords s.tx predicted response.length }

section
variable {s : State} {predicted : Nat} {response : List Byte} (hindex : s.tx.length ≤ 2 ^ 16)
  (hpredicted : predict s.cfg s.tx = some predicted) (hfit : response.length ≤ s.cfg.bufBytes)
include hindex hpredicted hfit

/-- An exchange hands the frame in TX to the host, predicts from it, and takes in a response that fits. -/
theorem exchange_runs : Runs (exchange s.tx.length response) s (s.exchanged predicted response) := by
  have hclear : Leads .clrRx s (s.withRx [] (s.trace ++ [{ cc := .ok, res := 0 }])) := fun _ => rfl
  have hreads := txReads_runs_all (s := s.withRx [] (s.trace ++ [{ cc := .ok, res := 0 }])) hindex
  have hsent := (Runs.cons rfl hclear hreads).append (Runs.single rfl (leads_pred hpredicted))
  have hpushes := (pushRx_pushes { s with expLen := BitVec.ofNat 18 predicted }).runs (fun _ => rfl) response []
    (s.trace ++ [{ cc := .ok, res := 0 }] ++ byteRecords s.tx ++ [{ cc := .ok, res := natRes predicted }])
    (by simpa using hfit)
  simpa [exchange, State.exchanged, exchangeRecords, State.withRx] using hsent.append hpushes

/-- A transaction whose request leads to `s` and whose decode leads on from what the exchange leaves of it. -/
theorem transaction_runs {request decodeWith : Instr} {r t : State} (hwf : request.WellFormed = true)
    (hrequest : Leads request r s) (hwfDecode : decodeWith.WellFormed = true)
    (hdecode : Leads decodeWith (s.exchanged predicted response) t) :
    Runs (transaction request s.tx.length response decodeWith) r t :=
  (Runs.cons hwf hrequest (exchange_runs hindex hpredicted hfit)).append (Runs.single hwfDecode hdecode)

end

/-- The number of steps of a transaction. -/
theorem transaction_length (request : Instr) (txLen : Nat) (response : List Byte) (decodeWith : Instr) :
    (transaction request txLen response decodeWith).length = response.length + (txLen + 4) := by
  simp +arith [transaction]

/-! ## Reading registers (R228, 41_frame_encode.md R106, 43_length_predictor.md R150, 42_frame_decode.md R135) -/

/-- `ENC.RHR` frames its request from every state (41_frame_encode.md R106). -/
theorem leads_encRhr (s : State) (slave : Byte) (addr qty : Half) :
    Leads (.encRhr slave addr qty) s (framed slave s.cfg.fcRhr (field16 addr ++ field16 qty) s) :=
  fun _ => emit_eq_framed ..

/-- The record of a framed read request: 8 bytes (30_encoding.md R62). -/
theorem framed_readRequest_trace (slave fc : Byte) (addr qty : Half) (s : State) :
    (framed slave fc (field16 addr ++ field16 qty) s).trace = s.trace ++ [{ cc := .ok, res := 8 }] := rfl

/-- `DEC.REGS` of register values in a response to the latched request (42_frame_decode.md R135). -/
theorem leads_decRegs {s : State} {count : Byte} {values : List Half} {x y : Byte} (hvalid : s.reqValid = true)
    (hrx : s.rx = readResponse s.reqSlave s.reqFc count (values.flatMap field16) x y) :
    Leads .decRegs s ({ s with out := values.flatMap field16 }.deliver .ok (natRes values.length)) := by
  intro port
  have hdecoded := execDecRegs_readResponse (s := { s with port := port }) hvalid hrx (by simp)
  rwa [flatMap_field16_length, Nat.mul_div_cancel_left _ (by decide)] at hdecoded

/-- Settles O59: the request leaves the frame that the exchange predicts the response's length from, and the latch that the
response answers. -/
theorem aReadTransactionDeliversTheSlavesRegisters : Obligations.AReadTransactionDeliversTheSlavesRegisters := by
  intro s slave addr values count x y rest hwf hlen hfit qty frame response
  have hresponse : response.length = 4 + 1 + 2 * values.length := by
    rw [readResponse_length, flatMap_field16_length, Nat.add_comm]
  have hqty : qty.toNat = values.length := Nat.mod_eq_of_lt hlen
  have hpredicted : predict s.cfg frame = some response.length := by
    rw [predict_readRegistersRequest slave addr qty hwf (.inl rfl), hqty, hresponse]
  have hfits : response.length ≤ s.cfg.bufBytes := by omega
  have hrun := transaction_runs (s := framed slave s.cfg.fcRhr (field16 addr ++ field16 qty) s)
    (show 8 ≤ 2 ^ 16 by decide) hpredicted hfits rfl (leads_encRhr s slave addr qty) rfl
    (leads_decRegs (values := values) rfl rfl)
  refine ⟨_, hrun.run (transaction_length ..) rest, rfl, rfl, rfl, rfl,
    toNat_ofNat_of_predict hpredicted (by decide), ?_⟩
  simp [State.exchanged, exchangeRecords, byteRecords, pushRecords, zext32, natRes, framed_readRequest_trace, frame]

/-! ## The post-write wait (R230) -/

/-- Up to 19200 baud both times are divided by the baud rate, so the wait is. -/
theorem postWriteWaitUs_of_le {h : HostConfig} (hpos : 0 < h.baud) (hle : h.baud ≤ 19200) (txLen expLen : Nat) :
    postWriteWaitUs exactDiv h txLen expLen =
      (15000000 * ((txLen : Rat) + (expLen : Rat)) + 35000000) / h.baud * h.multiplier := by
  have hslow : ¬ (h.baud = 0 ∨ 19200 < h.baud) := by omega
  simp only [postWriteWaitUs, charUs, frameUs, exactDiv, if_neg hslow]
  push_cast
  ring

/-- Settles O60: the wait divides a positive number by the baud rate, or divides nothing. -/
theorem hostWaitDecreasesWithTheBaudRate : Obligations.HostWaitDecreasesWithTheBaudRate := by
  refine fun h h' txLen expLen hmultiplier => ⟨fun hpos hbaud hlt hle => ?_, fun hfixed => ?_⟩
  · rw [postWriteWaitUs_of_le hbaud (hlt.le.trans hle), postWriteWaitUs_of_le (hbaud.trans hlt) hle, ← hmultiplier]
    gcongr
  · simp [postWriteWaitUs, charUs, frameUs, if_pos hfixed]

end Sys2Proof.Machine

/-!
PROOFS. The idle block (00_scope.md R9) and the reset by software (44_buffer_and_system.md R171).
-/

namespace Sys2Proof.Machine

/-- The reset of a state is the reset state with the instance's constants and the host's lists of that state (10_state.md R28;
logs 1, 2). -/
theorem State.toReset_eq_reset_with (s : State) :
    s.toReset = { State.reset with cfg := s.cfg, port := s.port, trace := s.trace } := rfl

/-- Settles O9: the step takes no input, so it is the idle one. -/
theorem idleBlockKeepsItsState : Obligations.IdleBlockKeepsItsState :=
  fun _ hport => step_idle hport

/-- Settles O45: the command completes in the reset of the state. -/
theorem srstPutsTheBlockIntoItsResetState : Obligations.SrstPutsTheBlockIntoItsResetState := by
  refine ⟨decodeOfEncodeIsTheInstruction .srst rfl, fun s => ?_⟩
  calc exec .srst s = .next (s.toReset.deliver .ok 0) := complete_next .ok 0 s.toReset
    _ = _ := by rw [State.toReset_eq_reset_with, State.deliver]

end Sys2Proof.Machine
